-- ==== Sys2Proof/Word.lean ====
section
/-! DEFINITION. The widths of the values that travel on the block's ports. -/

namespace Sys2Proof

/-- A command word or a response word (00_scope.md R2, 20_memory.md R82). -/
abbrev Word := BitVec 32

/-- A scaled control-voltage code, `int16` (00_scope.md R9, 10_state.md R23). -/
abbrev Code := BitVec 16

/-- The all-ones response: "none", and the answer of a command that faults
(30_encoding.md R109, 60_exceptions.md R321). -/
abbrev allOnes : Word := 0xFFFFFFFF#32

end Sys2Proof
end

