-- ==== Sys2Proof/Syntax.lean ====
section
/-! DEFINITION. The commands, one constructor per row of spec/opcode_table.json. -/

namespace Sys2Proof

/-- A command (30_encoding.md R107). `idx` is the 4-bit index of formats C and V (R103), `imm`
the 16-bit immediate of format V (R104), `addr` and `val` the fields of format R (R105), `mch`
the MIDI channel index, `status`, `d1`, `d2` the fields of format M (R102, R106). A realtime
message carries its data fields although its rule ignores them (42_midi_in.md R196). -/
inductive Instr where
  | load
  | send
  | mNoteoff (mch : BitVec 4) (d1 d2 : BitVec 7)
  | mNoteon (mch : BitVec 4) (d1 d2 : BitVec 7)
  | mAtpoly (mch : BitVec 4) (d1 d2 : BitVec 7)
  | mCc (mch : BitVec 4) (d1 d2 : BitVec 7)
  | mAtchan (mch : BitVec 4) (d1 d2 : BitVec 7)
  | mPbend (mch : BitVec 4) (d1 d2 : BitVec 7)
  | mClock (d1 d2 : BitVec 7)
  | mStart (d1 d2 : BitVec 7)
  | mCont (d1 d2 : BitVec 7)
  | mStop (d1 d2 : BitVec 7)
  | mReset (d1 d2 : BitVec 7)
  | mOther (status : BitVec 8) (d1 d2 : BitVec 7)
  | readIn (idx : BitVec 4)
  | gate (idx : BitVec 4)
  | clock (idx : BitVec 4)
  | tsc (idx : BitVec 4)
  | changed (idx : BitVec 4)
  | lastcv (idx : BitVec 4)
  | islag (idx : BitVec 4)
  | loop (idx : BitVec 4)
  | outq (idx : BitVec 4)
  | out (idx : BitVec 4) (imm : BitVec 16)
  | clkout (idx : BitVec 4) (imm : BitVec 16)
  | startlag (idx : BitVec 4)
  | nlast (idx : BitVec 4)
  | nmin (idx : BitVec 4)
  | nmax (idx : BitVec 4)
  | nfirst (idx : BitVec 4)
  | susq (idx : BitVec 4)
  | nsize (idx : BitVec 4)
  | mout (idx : BitVec 4)
  | mtrig (idx : BitVec 4)
  | logr (idx : BitVec 4)
  | playstop
  | tap
  | tock (idx : BitVec 4)
  | cfgw (addr : BitVec 8) (val : BitVec 16)
  | cfgr (addr : BitVec 8)
  deriving DecidableEq, Repr

end Sys2Proof
end

