-- ==== Sys2Proof/WellFormed.lean ====
section
/-! DEFINITION. Which instruction terms are instructions: those some command word stands for. -/

namespace Sys2Proof

/-- A status byte that one of the `M.*` rows before `M.OTHER` claims (30_encoding.md R102, R107):
the channel voice types 0x8 to 0xB, 0xD, 0xE and the realtime types 0xF8, 0xFA, 0xFB, 0xFC, 0xFF. -/
def dispatchedStatus (status : BitVec 8) : Bool :=
  match status.extractLsb' 4 4 with
  | 0x8#4 => true
  | 0x9#4 => true
  | 0xA#4 => true
  | 0xB#4 => true
  | 0xD#4 => true
  | 0xE#4 => true
  | 0xF#4 => status = 0xF8#8 || status = 0xFA#8 || status = 0xFB#8 || status = 0xFC#8
      || status = 0xFF#8
  | _ => false

/-- Every operand's width is in its type, and an index out of a command's range is no encoding
error (R103); what is left to check is that `M.OTHER` does not carry a dispatched status (R111). -/
def Instr.wellFormed : Instr → Bool
  | .mOther status _ _ => !dispatchedStatus status
  | .load | .send => true
  | .mNoteoff _ _ _ | .mNoteon _ _ _ | .mAtpoly _ _ _ | .mCc _ _ _ | .mAtchan _ _ _
  | .mPbend _ _ _ => true
  | .mClock _ _ | .mStart _ _ | .mCont _ _ | .mStop _ _ | .mReset _ _ => true
  | .readIn _ | .gate _ | .clock _ | .tsc _ | .changed _ | .lastcv _ | .islag _ | .loop _
  | .outq _ => true
  | .out _ _ | .clkout _ _ | .startlag _ => true
  | .nlast _ | .nmin _ | .nmax _ | .nfirst _ | .susq _ | .nsize _ | .mout _ | .mtrig _
  | .logr _ => true
  | .playstop | .tap | .tock _ => true
  | .cfgw _ _ | .cfgr _ => true

end Sys2Proof
end

