-- ==== Sys2Proof/Decode.lean ====
section
/-! DEFINITION. The command decoder and encoder of 30_encoding.md, and the opcode map of R107 as
a table of masks beside them. -/

namespace Sys2Proof

/-- Why a word is illegal (R110). -/
inductive Illegal where
  /-- An opcode byte not in the map. -/
  | unknownOpcode
  /-- A non-zero `zero` field. -/
  | reservedBits
  deriving DecidableEq, Repr

/-- `w[31:24]`, the opcode byte of every format (R100). -/
def opByte (w : Word) : BitVec 8 := w.extractLsb' 24 8

/-- `w[23:20]` of formats C and V (R101). -/
def idxField (w : Word) : BitVec 4 := w.extractLsb' 20 4

/-- `w[15:0]` of formats V and R. -/
def low16 (w : Word) : BitVec 16 := w.extractLsb' 0 16

/-- `w[23:16]`: `addr` of format R, `status` of format M. -/
def byte2 (w : Word) : BitVec 8 := w.extractLsb' 16 8

/-- `w[14:8]` of format M. -/
def d1Field (w : Word) : BitVec 7 := w.extractLsb' 8 7

/-- `w[6:0]` of format M. -/
def d2Field (w : Word) : BitVec 7 := w.extractLsb' 0 7

/-- A field named `zero` must be 0 (R101). -/
def requireZero (isZero : Bool) (i : Instr) : Except Illegal Instr :=
  if isZero then .ok i else .error .reservedBits

/-- Format Z. -/
def formZ (w : Word) (i : Instr) : Except Illegal Instr :=
  requireZero (w.extractLsb' 0 24 == 0) i

/-- Format C. -/
def formC (w : Word) (mk : BitVec 4 → Instr) : Except Illegal Instr :=
  requireZero (w.extractLsb' 0 20 == 0) (mk (idxField w))

/-- Format V. -/
def formV (w : Word) (mk : BitVec 4 → BitVec 16 → Instr) : Except Illegal Instr :=
  requireZero (w.extractLsb' 16 4 == 0) (mk (idxField w) (low16 w))

/-- The command a status byte selects among the `0x10` rows, `M.OTHER` last (R102, R107, R111). -/
def midiInstr (status : BitVec 8) (d1 d2 : BitVec 7) : Instr :=
  let mch := status.extractLsb' 0 4
  match status.extractLsb' 4 4 with
  | 0x8#4 => .mNoteoff mch d1 d2
  | 0x9#4 => .mNoteon mch d1 d2
  | 0xA#4 => .mAtpoly mch d1 d2
  | 0xB#4 => .mCc mch d1 d2
  | 0xD#4 => .mAtchan mch d1 d2
  | 0xE#4 => .mPbend mch d1 d2
  | 0xF#4 =>
    match mch with
    | 0x8#4 => .mClock d1 d2
    | 0xA#4 => .mStart d1 d2
    | 0xB#4 => .mCont d1 d2
    | 0xC#4 => .mStop d1 d2
    | 0xF#4 => .mReset d1 d2
    | _ => .mOther status d1 d2
  | _ => .mOther status d1 d2

/-- Format M: bits 15 and 7 are `zero` fields. -/
def formM (w : Word) : Except Illegal Instr :=
  requireZero (!w.getLsbD 15 && !w.getLsbD 7) (midiInstr (byte2 w) (d1Field w) (d2Field w))

/-- The decoder: total, an illegal word is refused by the name of its reason (R107, R110). -/
def decode (w : Word) : Except Illegal Instr :=
  match opByte w with
  | 0x01#8 => formZ w .load
  | 0x02#8 => formZ w .send
  | 0x10#8 => formM w
  | 0x20#8 => formC w .readIn
  | 0x21#8 => formC w .gate
  | 0x22#8 => formC w .clock
  | 0x23#8 => formC w .tsc
  | 0x24#8 => formC w .changed
  | 0x25#8 => formC w .lastcv
  | 0x26#8 => formC w .islag
  | 0x27#8 => formC w .loop
  | 0x28#8 => formC w .outq
  | 0x30#8 => formV w .out
  | 0x31#8 => formV w .clkout
  | 0x32#8 => formC w .startlag
  | 0x40#8 => formC w .nlast
  | 0x41#8 => formC w .nmin
  | 0x42#8 => formC w .nmax
  | 0x43#8 => formC w .nfirst
  | 0x44#8 => formC w .susq
  | 0x45#8 => formC w .nsize
  | 0x46#8 => formC w .mout
  | 0x47#8 => formC w .mtrig
  | 0x48#8 => formC w .logr
  | 0x50#8 => formZ w .playstop
  | 0x51#8 => formZ w .tap
  | 0x52#8 => formC w .tock
  | 0x60#8 => .ok (.cfgw (byte2 w) (low16 w))
  | 0x61#8 => requireZero (low16 w == 0) (.cfgr (byte2 w))
  | _ => .error .unknownOpcode

/-- Format Z word (R101). -/
def wordZ (op : BitVec 8) : Word := op ++ 0#24

/-- Format C word (R101). -/
def wordC (op : BitVec 8) (idx : BitVec 4) : Word := op ++ idx ++ 0#20

/-- Format V word (R101). -/
def wordV (op : BitVec 8) (idx : BitVec 4) (imm : BitVec 16) : Word := op ++ idx ++ 0#4 ++ imm

/-- Format R word (R101). -/
def wordR (op : BitVec 8) (addr : BitVec 8) (val : BitVec 16) : Word := op ++ addr ++ val

/-- Format M word (R101). -/
def wordM (status : BitVec 8) (d1 d2 : BitVec 7) : Word :=
  0x10#8 ++ status ++ 0#1 ++ d1 ++ 0#1 ++ d2

/-- The status byte of a channel voice message: the type in the high nibble, the MIDI channel
index in the low one (R102). -/
def voiceStatus (typ mch : BitVec 4) : BitVec 8 := typ ++ mch

/-- The command word of an instruction (R101, R107). -/
def encode : Instr → Word
  | .load => wordZ 0x01
  | .send => wordZ 0x02
  | .mNoteoff mch d1 d2 => wordM (voiceStatus 0x8 mch) d1 d2
  | .mNoteon mch d1 d2 => wordM (voiceStatus 0x9 mch) d1 d2
  | .mAtpoly mch d1 d2 => wordM (voiceStatus 0xA mch) d1 d2
  | .mCc mch d1 d2 => wordM (voiceStatus 0xB mch) d1 d2
  | .mAtchan mch d1 d2 => wordM (voiceStatus 0xD mch) d1 d2
  | .mPbend mch d1 d2 => wordM (voiceStatus 0xE mch) d1 d2
  | .mClock d1 d2 => wordM 0xF8 d1 d2
  | .mStart d1 d2 => wordM 0xFA d1 d2
  | .mCont d1 d2 => wordM 0xFB d1 d2
  | .mStop d1 d2 => wordM 0xFC d1 d2
  | .mReset d1 d2 => wordM 0xFF d1 d2
  | .mOther status d1 d2 => wordM status d1 d2
  | .readIn idx => wordC 0x20 idx
  | .gate idx => wordC 0x21 idx
  | .clock idx => wordC 0x22 idx
  | .tsc idx => wordC 0x23 idx
  | .changed idx => wordC 0x24 idx
  | .lastcv idx => wordC 0x25 idx
  | .islag idx => wordC 0x26 idx
  | .loop idx => wordC 0x27 idx
  | .outq idx => wordC 0x28 idx
  | .out idx imm => wordV 0x30 idx imm
  | .clkout idx imm => wordV 0x31 idx imm
  | .startlag idx => wordC 0x32 idx
  | .nlast idx => wordC 0x40 idx
  | .nmin idx => wordC 0x41 idx
  | .nmax idx => wordC 0x42 idx
  | .nfirst idx => wordC 0x43 idx
  | .susq idx => wordC 0x44 idx
  | .nsize idx => wordC 0x45 idx
  | .mout idx => wordC 0x46 idx
  | .mtrig idx => wordC 0x47 idx
  | .logr idx => wordC 0x48 idx
  | .playstop => wordZ 0x50
  | .tap => wordZ 0x51
  | .tock idx => wordC 0x52 idx
  | .cfgw addr val => wordR 0x60 addr val
  | .cfgr addr => wordR 0x61 addr 0

/-- One row of the opcode map: the word matches where `w & mask = bits`, and `build` reads its
operands. -/
structure MapRow where
  bits : Word
  mask : Word
  build : Word → Instr

/-- A row of format Z. -/
def rowZ (bits : Word) (i : Instr) : MapRow := ⟨bits, 0xFFFFFFFF, fun _ => i⟩

/-- A row of format C. -/
def rowC (bits : Word) (mk : BitVec 4 → Instr) : MapRow :=
  ⟨bits, 0xFF0FFFFF, fun w => mk (idxField w)⟩

/-- A row of format V. -/
def rowV (bits : Word) (mk : BitVec 4 → BitVec 16 → Instr) : MapRow :=
  ⟨bits, 0xFF0F0000, fun w => mk (idxField w) (low16 w)⟩

/-- A row of format M for a channel voice message: the low nibble of the status is free. -/
def rowVoice (bits : Word) (mk : BitVec 4 → BitVec 7 → BitVec 7 → Instr) : MapRow :=
  ⟨bits, 0xFFF08080, fun w => mk (w.extractLsb' 16 4) (d1Field w) (d2Field w)⟩

/-- A row of format M for a realtime message. -/
def rowRealtime (bits : Word) (mk : BitVec 7 → BitVec 7 → Instr) : MapRow :=
  ⟨bits, 0xFFFF8080, fun w => mk (d1Field w) (d2Field w)⟩

/-- The complete map, in the order of R107. -/
def opcodeMap : List MapRow :=
  [ rowZ 0x01000000 .load, rowZ 0x02000000 .send,
    rowVoice 0x10800000 .mNoteoff, rowVoice 0x10900000 .mNoteon, rowVoice 0x10A00000 .mAtpoly,
    rowVoice 0x10B00000 .mCc, rowVoice 0x10D00000 .mAtchan, rowVoice 0x10E00000 .mPbend,
    rowRealtime 0x10F80000 .mClock, rowRealtime 0x10FA0000 .mStart,
    rowRealtime 0x10FB0000 .mCont, rowRealtime 0x10FC0000 .mStop,
    rowRealtime 0x10FF0000 .mReset,
    ⟨0x10000000, 0xFF008080, fun w => .mOther (byte2 w) (d1Field w) (d2Field w)⟩,
    rowC 0x20000000 .readIn, rowC 0x21000000 .gate, rowC 0x22000000 .clock,
    rowC 0x23000000 .tsc, rowC 0x24000000 .changed, rowC 0x25000000 .lastcv,
    rowC 0x26000000 .islag, rowC 0x27000000 .loop, rowC 0x28000000 .outq,
    rowV 0x30000000 .out, rowV 0x31000000 .clkout, rowC 0x32000000 .startlag,
    rowC 0x40000000 .nlast, rowC 0x41000000 .nmin, rowC 0x42000000 .nmax,
    rowC 0x43000000 .nfirst, rowC 0x44000000 .susq, rowC 0x45000000 .nsize,
    rowC 0x46000000 .mout, rowC 0x47000000 .mtrig, rowC 0x48000000 .logr,
    rowZ 0x50000000 .playstop, rowZ 0x51000000 .tap, rowC 0x52000000 .tock,
    ⟨0x60000000, 0xFF000000, fun w => .cfgw (byte2 w) (low16 w)⟩,
    ⟨0x61000000, 0xFF00FFFF, fun w => .cfgr (byte2 w)⟩ ]

/-- Decoding as R107 says it: the first row whose `(w & mask) == match`. -/
def decodeByMap (w : Word) : Option Instr :=
  (opcodeMap.find? fun r => w &&& r.mask == r.bits).map fun r => r.build w

/-- The instruction read from an instruction whose bits are `w`, `nbits` of them given and every
bit above them 0. A command is one word on the CMD port: no byte order arises (20_memory.md R82). -/
def decodeTableWord (nbits w : Nat) : Option Instr :=
  (decode (BitVec.ofNat 32 (w % 2 ^ nbits))).toOption

end Sys2Proof
end

