-- ==== Sys2Proof/Config.lean ====
section
/-! DEFINITION. The implementation parameters of 00_scope.md R7, the values the spec
leaves open, and which parameter sets a block may have. -/

namespace Sys2Proof

/-- Slots of the input arrays: the four lanes of ports `ADC[0..3]` and `GATE_IN[0..3]`
(10_state.md R74, 92_eei_decisions.md D5). -/
abbrev ninMax : Nat := 4

/-- Slots of the DAC array: the four ports `DAC[0..3]` (R74, D5). -/
abbrev ndacMax : Nat := 4

/-- Slots of the output arrays: the largest `NOUT` (R7: "legal 4 to 8"). -/
abbrev noutMax : Nat := 8

/-- Note stacks: one for each value of the 4-bit field `mch` (10_state.md R38: `stack[0..15]`). -/
abbrev nmidiMax : Nat := 16

/-- The open function `ShuffleDelay(period, pct)` (44_clock_engine.md R273,
93_implementation_defined.md U1): the linear default the spec's vectors use, or any other
curve that keeps the three laws R273 grants. -/
inductive ShuffleCurve where
  | linear
  | free (id : Nat)
  deriving DecidableEq, Repr

/-- The open function that re-measures the beat (R277, U2): the spec's rule, or any other
function of the history of accepted pulses. -/
inductive Reconciliation where
  | lastSpacing
  | free (id : Nat)
  deriving DecidableEq, Repr

/-- FREE VALUE (log 6): how much the delay of curve `id` grows, for a channel of nominal
period `period`, from percentage `pct` to `pct + 1`. Nothing constrains it. -/
opaque Config.shuffleStep (id period pct : Nat) : Nat

/-- What one external sync pulse tells a re-measurement (44_clock_engine.md R276, R277): `sync_seen`
before it, the clock steps since the pulse before it, and the pulses that make a quarter note. -/
structure SyncPulse where
  locked : Bool
  since : BitVec 32
  ppqn : BitVec 5
  deriving DecidableEq, Repr

/-- FREE VALUE (log 7): what the open reconciliation `id` makes of the pulses accepted since reset,
the present one first, before it is clamped into `BT_MIN..BT_MAX`. Nothing constrains it. -/
opaque Config.freeBeat (id : Nat) (pulses : List SyncPulse) : Nat

/-- FREE VALUE (log 5): what an `n`-bit element holds after a rule writes a value to it that does not
fit, which only some parameter sets can bring about (R8: every write "must be shown by the rule to
fit"). Nothing constrains it. -/
opaque Config.unfit (n : Nat) (v : Int) : BitVec n

/-- FREE VALUE (log 5): `a` divided by a parameter that is 0 (R9: "Division by zero never occurs in a
rule"). Nothing constrains it. -/
opaque Config.freeQuotient (a : Int) : Int

/-- FREE VALUE (log 5): `clamp(v, lo, hi)` where the parameters make `lo` greater than `hi` (R8).
Nothing constrains it. -/
opaque Config.freeClamp (v lo hi : Nat) : Nat

/-- The parameters of R7. The default of each field is the value column of R7 (log 4). -/
structure Config where
  /-- `NIN`, 4 (D5); a block with fewer lanes has the others never (log 11). -/
  nin : Nat := 4
  /-- `NDAC`, 4 (D5). -/
  ndac : Nat := 4
  /-- `NOUT`, OPEN, 4 to 8 (D5). -/
  nout : Nat := 4
  /-- `NMIDI`; the encodings allow no value but 16 (log 11). -/
  nmidi : Nat := 16
  /-- `ADC_LAG_TICKS`. -/
  adcLagTicks : Nat := 96
  /-- `LOG_DEPTH`. -/
  logDepth : Nat := 7
  /-- `MIDI_PPQN`. -/
  midiPpqn : Nat := 24
  /-- `TAP_N`, intervals per tap gesture (90_conflicts.md C2). -/
  tapN : Nat := 3
  /-- `STACK_MAX`, a bound that no rule enforces (10_state.md R38, 42_midi_in.md R214). -/
  stackMax : Nat := 128
  /-- `CODES_PER_SEMITONE`. -/
  codesPerSemitone : Nat := 128
  /-- `GATE_THRESHOLD`. -/
  gateThreshold : Nat := 1920
  /-- `GATE_HIGH_CODE`. -/
  gateHighCode : Nat := 7680
  /-- `CV_MAX`. -/
  cvMax : Nat := 7680
  /-- `NOTE_CV_ZERO`. -/
  noteCvZero : Nat := 60
  /-- `CHANGE_THRESHOLD`, OPEN (D9). -/
  changeThreshold : Nat := 32
  /-- `DEBOUNCE_TICKS`, OPEN (D8). -/
  debounceTicks : Nat := 1
  /-- `TRIG_PULSE_TICKS`, OPEN (D12); read only by the pseudo-instruction TRIGOUT (R114). -/
  trigPulseTicks : Nat := 50
  /-- `TICKS_PER_MIN` (D30). -/
  ticksPerMin : Nat := 1000000
  /-- `BPM_MIN` (D30). -/
  bpmMin : Nat := 1
  /-- `BPM_MAX` (D30). -/
  bpmMax : Nat := 300
  /-- `TAP_MAX_TICKS`, OPEN (D38). -/
  tapMaxTicks : Nat := 1000000
  /-- `MULT_POS_OFFSET`, OPEN, 0 or 1 (D34, C1). -/
  multPosOffset : Nat := 0
  /-- `SHUFFLE_MAX` (D35). -/
  shuffleMax : Nat := 99
  /-- `ShuffleDelay`, OPEN (D35). -/
  shuffleCurve : ShuffleCurve := .linear
  /-- `MO_VELOCITY` (D27). -/
  moVelocity : Nat := 100
  /-- `RXQ_DEPTH`, OPEN, 1 to 255 (D17). -/
  rxqDepth : Nat := 64
  /-- `DAC_OCTAVE` (D29); the spec gives it no width (log 16). -/
  dacOctave : Nat := 0
  /-- The reconciliation function of R277, OPEN (D36). -/
  reconciliation : Reconciliation := .lastSpacing
  deriving DecidableEq, Repr

/-- The tempo after reset, in beats per minute (10_state.md R66). -/
abbrev resetBpm : Nat := 120

/-- `CODES_PER_VOLT`, derived: twelve semitones (R7). -/
def Config.codesPerVolt (c : Config) : Nat := 12 * c.codesPerSemitone

/-- `a div b`; free where `b` is 0 (R9). -/
def Config.quotient (a b : Nat) : Nat := if b = 0 then (Config.freeQuotient a).toNat else a / b

/-- `BT_MIN`, derived (R7). -/
def Config.btMin (c : Config) : Nat := Config.quotient c.ticksPerMin c.bpmMax

/-- `BT_MAX`, derived (R7). -/
def Config.btMax (c : Config) : Nat := Config.quotient c.ticksPerMin c.bpmMin

/-- The parameter sets 93_implementation_defined.md U13 lets a model accept. -/
def Config.accepted (c : Config) : Bool :=
  decide (4 ≤ c.nout ∧ c.nout ≤ noutMax)
  && decide (1 ≤ c.debounceTicks)
  && decide (1 ≤ c.rxqDepth ∧ c.rxqDepth ≤ 255)
  && decide (c.multPosOffset ≤ 1)

/-- The accepted parameter sets under which no rule leaves what the spec states: every written value
fits the width 10_state.md gives it (R8), no divisor is 0 (R9), no range is empty, and the numbers that
other rules write out agree (DEDUCED, log 5). Statements assume it; no step asks for it. -/
def Config.legal (c : Config) : Bool :=
  c.accepted
  && decide (c.nin ≤ ninMax ∧ c.ndac ≤ ndacMax)
  && decide (c.nmidi = nmidiMax ∧ 128 ≤ c.stackMax)
  && decide (c.debounceTicks ≤ 256)
  && decide (c.adcLagTicks ≤ 255)
  && decide (1 ≤ c.logDepth)
  && decide (1 ≤ c.midiPpqn)
  && decide (1 ≤ c.tapN)
  && decide (1 ≤ c.codesPerSemitone)
  && decide (c.noteCvZero * c.codesPerSemitone ≤ 32768
    ∧ 127 * c.codesPerSemitone ≤ 32767 + c.noteCvZero * c.codesPerSemitone)
  && decide (c.gateHighCode ≤ 32767 ∧ c.cvMax ≤ 32767)
  && decide (c.trigPulseTicks ≤ 65535)
  && decide (1 ≤ c.bpmMin ∧ c.bpmMin ≤ resetBpm ∧ resetBpm ≤ c.bpmMax ∧ c.bpmMax ≤ 511)
  && decide (1 ≤ c.btMin ∧ c.btMax < 2 ^ 20)
  && decide (c.shuffleMax ≤ 99 ∧ c.moVelocity ≤ 255)

end Sys2Proof
end

