-- ==== Sys2Proof/Machine/Widths.lean ====
section
/-! DEFINITION. Writes to elements of a width, and clamping: the conventions of 00_scope.md R8, and
what happens under parameters that break them (log 5). -/

namespace Sys2Proof.Machine

/-- The `n`-bit element a rule writes the natural number `v` to (R8). -/
def fitNat (n v : Nat) : BitVec n := if v < 2 ^ n then BitVec.ofNat n v else Config.unfit n v

/-- The 16-bit code of an integer in `-32768..32767` (R8, R9). -/
def toCode (v : Int) : Code :=
  if -32768 ≤ v ∧ v ≤ 32767 then BitVec.ofInt 16 v else Config.unfit 16 v

/-- `clamp(v, lo, hi)` on naturals (R8). -/
def clampNat (v lo hi : Nat) : Nat :=
  if lo ≤ hi then max lo (min v hi) else Config.freeClamp v lo hi

end Sys2Proof.Machine
end

