-- ==== Sys2Proof/Machine/State.lean ====
section
/-! DEFINITION. The architectural state of 10_state.md as plain data, the outcomes of a step and
the state after reset (70_reset_and_hazards.md R350, R351). -/

namespace Sys2Proof.Machine

/-- The phase register (10_state.md R32). -/
inductive Phase where
  /-- `PH_IDLE`, between ticks. -/
  | idle
  /-- `PH_PROCESS`, inside a tick. -/
  | process
  deriving DecidableEq, Repr

/-- `clk_state` (R65); the value 3 never occurs. -/
inductive ClkState where
  | stopped
  | paused
  | running
  deriving DecidableEq, Repr

/-- The function enumeration `map_fn` (R43), in the order of its numbers 0 to 17. -/
inductive MapFn where
  | off
  | noteLast
  | notePoly2
  | notePoly3
  | notePoly4
  | noteMin
  | noteMax
  | notePedal
  | noteInv
  | velocity
  | gate
  | trigAlways
  | trigFirst
  | cc
  | aftertouch
  | pitchbend
  | clock
  | start
  deriving DecidableEq, Repr

/-- The outbound role `mo_fn` (R52), in the order of its numbers 0 to 2. -/
inductive MoFn where
  | off
  | note
  | gate
  deriving DecidableEq, Repr

/-- `fault_code` (R60, 60_exceptions.md R320), in the order of its numbers 0 to 5. -/
inductive FaultCode where
  | none
  | illegalCommand
  | badOrder
  | badChannel
  | badRegister
  | badValue
  deriving DecidableEq, Repr

/-- An entry of a note stack (R38). -/
structure NoteEntry where
  note : BitVec 7
  velocity : BitVec 7
  deriving DecidableEq, Repr

/-- A parsed inbound MIDI message (R56), with the 7-bit data values of R102 and R106. -/
structure MidiMsg where
  status : BitVec 8
  d1 : BitVec 7
  d2 : BitVec 7
  deriving DecidableEq, Repr

/-- An outbound MIDI message (R58), the 24 bits that the port `MIDI_OUT` carries (R74). DEDUCED
(log 19): eight of them are each data byte. -/
structure OutMsg where
  status : BitVec 8
  d1 : BitVec 8
  d2 : BitVec 8
  deriving DecidableEq, Repr

/-- An entry of the activity log (R50). -/
structure LogEntry where
  msg : BitVec 8
  d1 : BitVec 7
  d2 : BitVec 7
  deriving DecidableEq, Repr

/-- What one DAC port carries (R74); the octave is the constant `DAC_OCTAVE`. -/
structure DacWord where
  code : Code
  octave : Nat
  deriving DecidableEq, Repr

/-- The values on the input ports while one command runs (R21, R74): the ADC codes and gate lines
a LOAD samples and the word `RngDraw()` returns. They are free inputs (log 2). -/
structure Inputs where
  adc : Vector (BitVec 16) ninMax
  gateIn : Vector Bool ninMax
  rng : BitVec 32
  deriving DecidableEq, Repr

/-- What the host does to the block next (log 1, log 3). -/
inductive HostEvent where
  /-- A word on the CMD port, with the input-port values of that moment. -/
  | command (word : Word) (inputs : Inputs)
  /-- The RESET port is asserted. -/
  | assertReset
  /-- The RESET port is released. -/
  | releaseReset
  deriving DecidableEq, Repr

/-- The state of one input lane (R22 to R27, R34 to R36). -/
structure InChannel where
  /-- `in[ch]`. -/
  inCv : Code
  lastCv : Code
  tsc : BitVec 32
  lagCd : BitVec 8
  dbCnt : BitVec 8
  gateHigh : Bool
  clocked : Bool
  changedCv : Bool
  deriving DecidableEq, Repr

/-- The state of one output lane (R28 to R31, R41, R47 to R49, R52, R54, R55, R67 to R69). -/
structure OutChannel where
  out : Code
  prevOut : Code
  clockCd : BitVec 16
  loop : Bool
  mapMch : BitVec 4
  mapFn : MapFn
  mapCc : BitVec 7
  ccUnset : Bool
  mOut : Code
  mTrig : Bool
  moFn : MoFn
  moChan : BitVec 4
  noteoffCd : BitVec 16
  sndValid : Bool
  sndNote : BitVec 7
  sndChan : BitVec 4
  mult : BitVec 8
  pulsePar : Bool
  shufCd : BitVec 32
  tock : Bool
  deriving DecidableEq, Repr

/-- The MIDI state engine (R38 to R40, R42, R44 to R46, R50, R51, R53, R56 to R58). -/
structure MidiState where
  stack : Vector (List NoteEntry) nmidiMax
  semitoneMask : BitVec 12
  sustain : BitVec 16
  log : List LogEntry
  clkDiv : BitVec 8
  ppqnCnt : BitVec 8
  /-- `midi_running`. -/
  running : Bool
  /-- `midi_clk_tick`. -/
  clkTick : Bool
  /-- `auto_midi_out`. -/
  autoOut : Bool
  moHold : BitVec 16
  /-- `midi_rx`, oldest first. -/
  rx : List MidiMsg
  rxqOvf : Bool
  /-- `midi_tx`, in append order. -/
  tx : List OutMsg
  deriving DecidableEq, Repr

/-- The clock and tempo engine (R65, R66, R68, R70 to R73). -/
structure ClockState where
  state : ClkState
  bpm : BitVec 9
  beatTicks : BitVec 20
  shuffle : BitVec 7
  /-- `midi_clk_emit`. -/
  emitClk : Bool
  beatPos : BitVec 32
  beatCount : BitVec 32
  sinceSync : BitVec 32
  syncSeen : Bool
  syncCnt : BitVec 5
  syncPpqn : BitVec 5
  syncSrc : BitVec 3
  /-- `tap_buf[0..TAP_N-1]`. -/
  tapBuf : List (BitVec 32)
  /-- `tap_n`, `0..TAP_N-1`. -/
  tapN : Nat
  lastTap : BitVec 32
  lastTapValid : Bool
  /-- The MODEL's own (log 7): the pulses accepted since reset, the last one first; only an open
  reconciliation function reads it. -/
  pulses : List SyncPulse
  deriving DecidableEq, Repr

/-- The fault latch, driven on the FAULT port (R60). -/
structure FaultLatch where
  code : FaultCode
  word : Word
  deriving DecidableEq, Repr

/-- The state of the block. `cfg`, `pending` and `inputs` are the model's own (log 4, 1, 2). -/
structure State where
  cfg : Config
  /-- The level of the RESET port (R74): while it is asserted the block ignores CMD
  (70_reset_and_hazards.md R350, log 3). -/
  resetAsserted : Bool
  pending : List HostEvent
  inputs : Inputs
  ins : Vector InChannel ninMax
  outs : Vector OutChannel noutMax
  phase : Phase
  tickCount : BitVec 32
  midi : MidiState
  clk : ClockState
  clkSkip : BitVec 7
  rngDraws : BitVec 32
  fault : FaultLatch
  resp : Word
  dac : Vector DacWord ndacMax
  midiOut : List OutMsg
  deriving DecidableEq, Repr

/-- Reasons a step stops with a fault: NONE. Every fault of the spec is a latch after which the
block goes on answering commands (60_exceptions.md R321), so taking one is a next state (log 8). -/
inductive Fault where
  deriving DecidableEq, Repr

/-- Reasons a step is refused. -/
inductive Refusal where
  /-- `exec` raises it for an instruction without a meaning; safe. No arm does. -/
  | notModelled (mnemonic : String)
  /-- `step` raises it when the host presents something to a state whose parameters are among those
  93_implementation_defined.md U13 tells a model to refuse; safe. -/
  | illegalConfiguration
  deriving DecidableEq, Repr

/-- The outcome of a command or a step. -/
abbrev Result : Type := Host.Outcome State Fault Refusal

/-- An input lane after reset (70_reset_and_hazards.md R351). -/
def InChannel.reset : InChannel :=
  { inCv := 0, lastCv := 0, tsc := 0, lagCd := 0, dbCnt := 0, gateHigh := false,
    clocked := false, changedCv := false }

/-- An output lane after reset (R351). -/
def OutChannel.reset : OutChannel :=
  { out := 0, prevOut := 0, clockCd := 0, loop := false, mapMch := 0, mapFn := .off, mapCc := 0,
    ccUnset := true, mOut := 0, mTrig := false, moFn := .off, moChan := 0, noteoffCd := 0,
    sndValid := false, sndNote := 0, sndChan := 0, mult := 0, pulsePar := false, shufCd := 0,
    tock := false }

/-- The MIDI state engine after reset (R351). -/
def MidiState.reset : MidiState :=
  { stack := Vector.replicate nmidiMax [], semitoneMask := 0, sustain := 0, log := [], clkDiv := 1,
    ppqnCnt := 0, running := false, clkTick := false, autoOut := false, moHold := 0, rx := [],
    rxqOvf := false, tx := [] }

/-- The clock engine after reset (R351); `beat_ticks` is the length 120 beats per minute have
(8333 with the default parameters, log 10). -/
def ClockState.resetWith (cfg : Config) : ClockState :=
  { state := .stopped, bpm := BitVec.ofNat 9 resetBpm,
    beatTicks := fitNat 20 (cfg.ticksPerMin / resetBpm), shuffle := 0, emitClk := true,
    beatPos := 0, beatCount := 0, sinceSync := 0, syncSeen := false, syncCnt := 0, syncPpqn := 4,
    syncSrc := 7, tapBuf := List.replicate cfg.tapN 0, tapN := 0, lastTap := 0,
    lastTapValid := false, pulses := [] }

/-- Input ports on which nothing is driven: every value 0 (log 2). -/
def Inputs.zero : Inputs :=
  { adc := Vector.replicate ninMax 0, gateIn := Vector.replicate ninMax false, rng := 0 }

/-- A block with the parameters `cfg` right after reset (R350, R351), with nothing presented. -/
def State.resetWith (cfg : Config) : State :=
  { cfg := cfg, resetAsserted := false, pending := [], inputs := .zero, ins := Vector.replicate ninMax .reset,
    outs := Vector.replicate noutMax .reset, phase := .idle, tickCount := 0, midi := .reset,
    clk := .resetWith cfg, clkSkip := 0, rngDraws := 0, fault := { code := .none, word := 0 },
    resp := 0, dac := Vector.replicate ndacMax { code := 0, octave := cfg.dacOctave },
    midiOut := [] }

/-- The machine right after reset, with the default parameters of 00_scope.md R7 (log 4). -/
def State.reset : State := .resetWith {}

end Sys2Proof.Machine
end

