-- ==== Sys2Proof/Machine/Operands.lean ====
section
/-! DEFINITION. Operand forms, value mappings and response words: the helper functions of
00_scope.md R9 and R11, the index ranges of 30_encoding.md R103, the response forms of R109 and
the register addresses of 10_state.md R61 to R63. -/

namespace Sys2Proof.Machine

/-- `clamp(v, lo, hi)` on integers (R8). -/
def clampInt (v lo hi : Int) : Int := max lo (min v hi)

/-- `sat_32(v + 1)` (R8). -/
def satSucc (v : BitVec 32) : BitVec 32 := if v = allOnes then allOnes else v + 1

/-- `NoteCV(n)` (R11). -/
def noteCV (cfg : Config) (n : Nat) : Code :=
  toCode (((n : Int) - cfg.noteCvZero) * cfg.codesPerSemitone)

/-- `Prop7(v)` (R11). -/
def prop7 (cfg : Config) (v : BitVec 7) : Code := toCode ((v.toNat * cfg.cvMax / 127 : Nat) : Int)

/-- `Prop14(v)`: division truncates toward zero (R9, R11). -/
def prop14 (cfg : Config) (v : Nat) : Code := toCode (Int.tdiv (((v : Int) - 8192) * cfg.cvMax) 8192)

/-- `CVToNote(v)`: the nearest semitone, ties upward, held in 0..127 (R11, R243); free where
`CODES_PER_SEMITONE` is 0 (log 5). -/
def cvToNote (cfg : Config) (v : Code) : BitVec 7 :=
  let semitones := if cfg.codesPerSemitone = 0 then Config.freeQuotient v.toInt
    else Int.fdiv (v.toInt + (cfg.codesPerSemitone / 2 : Nat)) cfg.codesPerSemitone
  BitVec.ofNat 7 (clampInt (semitones + cfg.noteCvZero) 0 127).toNat

/-- The 14-bit pitch-bend value `(d2 << 7) | d1` (R106, 20_memory.md R82). -/
def bendValue (d1 d2 : BitVec 7) : Nat := (d2 ++ d1).toNat

/-- `ShuffleDelay(period, pct)` (44_clock_engine.md R273). A free curve sums free growths, held
below a positive `period`: so it is 0 at 0, monotonic in `pct` and less than `period`, and every
function with these three properties is such a sum (log 6). DESIGN CHOICE, log 6: at a period of 0,
where no delay is less than the period and the spec states nothing, the linear curve is its formula, 0,
and a free curve is the sum with no bound. -/
def shuffleDelay (cfg : Config) (period pct : Nat) : Nat :=
  match cfg.shuffleCurve with
  | .linear => period * pct / 100
  | .free id =>
    let growth := ((List.range pct).map (Config.shuffleStep id period)).sum
    if period = 0 then growth else min (period - 1) growth

/-- A flag, zero-extended (R109). -/
def flagWord (b : Bool) : Word := if b then 1 else 0

/-- A 16-bit signed code, sign-extended (R109). -/
def codeWord (c : Code) : Word := c.signExtend 32

/-- A 16-bit register value, zero-extended (R109). -/
def regWord (v : BitVec 16) : Word := v.setWidth 32

/-- The entry word `(velocity << 8) | note` of a note query (43_midi_query_out.md R239). -/
def entryWord (e : NoteEntry) : Word := 0#17 ++ e.velocity ++ 0#1 ++ e.note

/-- The answer of a note query: the entry word, or all ones for none (R239). -/
def entryAnswer : Option NoteEntry → Word
  | some e => entryWord e
  | none => allOnes

/-- The word `(msg << 16) | (d1 << 8) | d2` of a log entry (R238). -/
def logWord (e : LogEntry) : Word := 0#8 ++ e.msg ++ 0#1 ++ e.d1 ++ 0#1 ++ e.d2

/-- The number of a map function (10_state.md R43). -/
def MapFn.bits : MapFn → BitVec 5
  | .off => 0
  | .noteLast => 1
  | .notePoly2 => 2
  | .notePoly3 => 3
  | .notePoly4 => 4
  | .noteMin => 5
  | .noteMax => 6
  | .notePedal => 7
  | .noteInv => 8
  | .velocity => 9
  | .gate => 10
  | .trigAlways => 11
  | .trigFirst => 12
  | .cc => 13
  | .aftertouch => 14
  | .pitchbend => 15
  | .clock => 16
  | .start => 17

/-- The map function of a number; 18 to 31 are reserved (R43) and no legal write carries them
(45_config.md R303). -/
def MapFn.ofBits (b : BitVec 5) : MapFn :=
  match b with
  | 1#5 => .noteLast
  | 2#5 => .notePoly2
  | 3#5 => .notePoly3
  | 4#5 => .notePoly4
  | 5#5 => .noteMin
  | 6#5 => .noteMax
  | 7#5 => .notePedal
  | 8#5 => .noteInv
  | 9#5 => .velocity
  | 10#5 => .gate
  | 11#5 => .trigAlways
  | 12#5 => .trigFirst
  | 13#5 => .cc
  | 14#5 => .aftertouch
  | 15#5 => .pitchbend
  | 16#5 => .clock
  | 17#5 => .start
  | _ => .off

/-- The number of an outbound role (R52). -/
def MoFn.bits : MoFn → BitVec 2
  | .off => 0
  | .note => 1
  | .gate => 2

/-- The outbound role of a number; 3 is reserved (R52). -/
def MoFn.ofBits (b : BitVec 2) : MoFn :=
  match b with
  | 1#2 => .note
  | 2#2 => .gate
  | _ => .off

/-- The number of a clock state (R65). -/
def ClkState.bits : ClkState → BitVec 2
  | .stopped => 0
  | .paused => 1
  | .running => 2

/-- The bit of a phase (R32). -/
def Phase.bit : Phase → BitVec 1
  | .idle => 0
  | .process => 1

/-- The number of a fault (60_exceptions.md R320). -/
def FaultCode.bits : FaultCode → BitVec 3
  | .none => 0
  | .illegalCommand => 1
  | .badOrder => 2
  | .badChannel => 3
  | .badRegister => 4
  | .badValue => 5

/-- The registers of R62 and R63, each under its name. -/
inductive Reg where
  | ctrl
  | clkDiv
  | clkSkip
  | bpm
  | shuffle
  | syncPpqn
  | syncSrc
  | moHold
  | mapa (ch : BitVec 3)
  | mapb (ch : BitVec 3)
  | mult (ch : BitVec 3)
  | mo (ch : BitVec 3)
  | status
  | tickLo
  | tickHi
  | rngDraws
  | sustain
  | semitone
  | beatTicksLo
  | beatTicksHi
  | rxqLevel
  | ppqnCnt
  deriving DecidableEq, Repr

/-- A per-channel register exists only for `ch < NOUT` (R61, 45_config.md R302). -/
def bankReg (nout : Nat) (ch : BitVec 3) (r : Reg) : Option Reg :=
  if ch.toNat < nout then some r else none

/-- The register implemented at an address, if there is one (R61 to R63, R302). -/
def regAt (nout : Nat) (addr : BitVec 8) : Option Reg :=
  let ch := addr.extractLsb' 0 3
  match addr.extractLsb' 3 5 with
  | 0#5 =>
    match ch with
    | 0#3 => some .ctrl
    | 1#3 => some .clkDiv
    | 2#3 => some .clkSkip
    | 3#3 => some .bpm
    | 4#3 => some .shuffle
    | 5#3 => some .syncPpqn
    | 6#3 => some .syncSrc
    | _ => some .moHold
  | 2#5 => bankReg nout ch (.mapa ch)
  | 3#5 => bankReg nout ch (.mapb ch)
  | 4#5 => bankReg nout ch (.mult ch)
  | 5#5 => bankReg nout ch (.mo ch)
  | 16#5 =>
    match ch with
    | 0#3 => some .status
    | 1#3 => some .tickLo
    | 2#3 => some .tickHi
    | 3#3 => some .rngDraws
    | 4#3 => some .sustain
    | 5#3 => some .semitone
    | 6#3 => some .beatTicksLo
    | _ => some .beatTicksHi
  | 17#5 =>
    match ch with
    | 0#3 => some .rxqLevel
    | 1#3 => some .ppqnCnt
    | _ => none
  | _ => none

/-- The address of a register (R62, R63). -/
def Reg.addr : Reg → BitVec 8
  | .ctrl => 0x00
  | .clkDiv => 0x01
  | .clkSkip => 0x02
  | .bpm => 0x03
  | .shuffle => 0x04
  | .syncPpqn => 0x05
  | .syncSrc => 0x06
  | .moHold => 0x07
  | .mapa ch => 2#5 ++ ch
  | .mapb ch => 3#5 ++ ch
  | .mult ch => 4#5 ++ ch
  | .mo ch => 5#5 ++ ch
  | .status => 0x80
  | .tickLo => 0x81
  | .tickHi => 0x82
  | .rngDraws => 0x83
  | .sustain => 0x84
  | .semitone => 0x85
  | .beatTicksLo => 0x86
  | .beatTicksHi => 0x87
  | .rxqLevel => 0x88
  | .ppqnCnt => 0x89

/-- Configuration registers may be written; status registers are read-only (R61, R63). -/
def Reg.writable : Reg → Bool
  | .ctrl | .clkDiv | .clkSkip | .bpm | .shuffle | .syncPpqn | .syncSrc | .moHold => true
  | .mapa _ | .mapb _ | .mult _ | .mo _ => true
  | .status | .tickLo | .tickHi | .rngDraws | .sustain | .semitone | .beatTicksLo
  | .beatTicksHi | .rxqLevel | .ppqnCnt => false

/-- The complete test of a value for a register (45_config.md R303): no bit outside the fields of
10_state.md R62, and a field value in its range; no value is legal for a status register. -/
def legalValue (cfg : Config) (r : Reg) (val : BitVec 16) : Bool :=
  let v := val.toNat
  match r with
  | .ctrl => decide (v ≤ 1)
  | .clkDiv => decide (1 ≤ v ∧ v ≤ 255)
  | .clkSkip => decide (v ≤ 100)
  | .bpm => decide (cfg.bpmMin ≤ v ∧ v ≤ cfg.bpmMax ∧ v < 2 ^ 9)
  | .shuffle => decide (v ≤ cfg.shuffleMax ∧ v < 2 ^ 7)
  | .syncPpqn => decide (1 ≤ v ∧ v ≤ 24)
  | .syncSrc => decide ((v < cfg.nin ∨ v = 7) ∧ v < 2 ^ 3)
  | .moHold => true
  | .mapa _ => val &&& ~~~0x1F0F#16 == 0 && decide ((val.extractLsb' 8 5).toNat ≤ 17)
  | .mapb _ => decide (v ≤ 0x00FF)
  | .mult _ => decide (v ≤ 0x00FF)
  | .mo _ => val &&& ~~~0x030F#16 == 0 && decide ((val.extractLsb' 8 2).toNat ≤ 2)
  | .status | .tickLo | .tickHi | .rngDraws | .sustain | .semitone | .beatTicksLo
  | .beatTicksHi | .rxqLevel | .ppqnCnt => false

end Sys2Proof.Machine
end

