-- ==== Sys2Proof/Machine/Flags.lean ====
section
/-! DEFINITION. How each flag is computed and what the STATUS register shows. -/

namespace Sys2Proof.Machine

/-- `high(v)`: above the gate threshold, strictly (00_scope.md R11). -/
def high (cfg : Config) (v : Code) : Bool := decide ((cfg.gateThreshold : Int) < v.toInt)

/-- The loopback flag after `out` moves from `old` to `new`: set by a rise through the gate
threshold, never cleared by a write (41_frame_io.md R170). -/
def loopAfter (cfg : Config) (old new : Code) (flag : Bool) : Bool :=
  flag || (!high cfg old && high cfg new)

/-- `changed_cv`: the distance to the last change exceeds the threshold, strictly and without
wrap-around (40_tick_phases.md R137). -/
def cvChanged (cfg : Config) (lastCv v : Code) : Bool :=
  decide (cfg.changeThreshold < (v.toInt - lastCv.toInt).natAbs)

/-- The debouncer: the new level and the new count (R135). -/
def debounce (cfg : Config) (raw old : Bool) (cnt : BitVec 8) : Bool × BitVec 8 :=
  if raw = old then (old, 0)
  else if cfg.debounceTicks ≤ cnt.toNat + 1 then (raw, 0)
  else (old, fitNat 8 (cnt.toNat + 1))

/-- `clocked`: the debounced level went from 0 to 1 (R135). -/
def risingEdge (old new : Bool) : Bool := !old && new

/-- The one-tick flags of an output lane, cleared (R132). -/
def OutChannel.clearFlags (c : OutChannel) : OutChannel :=
  { c with loop := false, mTrig := false, tock := false }

/-- The 12-bit pitch-class bit of a note (42_midi_in.md R199). -/
def semitoneBit (note : BitVec 7) : BitVec 12 := 1#12 <<< (note.toNat % 12)

/-- The sustain latch of a MIDI channel (10_state.md R42). -/
def sustained (sustain : BitVec 16) (mch : BitVec 4) : Bool := sustain.getLsbD mch.toNat

/-- `sustain` with the latch of one MIDI channel set. -/
def setSustain (sustain : BitVec 16) (mch : BitVec 4) : BitVec 16 :=
  sustain ||| 1#16 <<< mch.toNat

/-- `sustain` with the latch of one MIDI channel cleared. -/
def clearSustain (sustain : BitVec 16) (mch : BitVec 4) : BitVec 16 :=
  sustain &&& ~~~(1#16 <<< mch.toNat)

/-- The STATUS register (10_state.md R63). -/
def statusWord (s : State) : BitVec 16 :=
  0#8 ++ s.phase.bit ++ BitVec.ofBool s.clk.syncSeen ++ BitVec.ofBool s.midi.rxqOvf
    ++ BitVec.ofBool s.clk.emitClk ++ BitVec.ofBool s.midi.clkTick ++ BitVec.ofBool s.midi.running
    ++ s.clk.state.bits

end Sys2Proof.Machine
end

