-- ==== Sys2Proof/Machine/Ops.lean ====
section
/-! DEFINITION. The named operations the commands share: answering, TAKING A FAULT, the phase and
index checks, access to the lanes, the queues and the note stacks. -/

namespace Sys2Proof.Machine

/-- `resp <- w` (00_scope.md R10). -/
def State.respond (s : State) (w : Word) : State := { s with resp := w }

/-- A fault is latched (60_exceptions.md R321). -/
def State.faulted (s : State) : Bool := s.fault.code != .none

/-- TAKING A FAULT, `raise <Fault>(w)` (R321): the code and the word are latched, the response is
all ones, and nothing else changes. There is no return but RESET (R330). -/
def State.raise (s : State) (code : FaultCode) (w : Word) : State :=
  { s with fault := { code := code, word := w }, resp := allOnes }

/-- THE WAY OUT of the faulted state, and the only one: RESET (R330, 70_reset_and_hazards.md R350).
Every element gets its reset value when the port is released; the parameters are the block's, and what
the host has still to present and drives on the input ports is the host's (log 3). -/
def State.afterReset (s : State) : State :=
  { State.resetWith s.cfg with pending := s.pending, inputs := s.inputs }

/-- A command that is legal only in `PH_PROCESS` and checks no index (30_encoding.md R108). -/
def inProcess (i : Instr) (s t : State) : Result :=
  match s.phase with
  | .idle => .next (s.raise .badOrder (encode i))
  | .process => .next t

/-- A command of format C or V: `BadOrder` is checked first, then `BadChannel` (R103, R328).
`sel` is what its index selects, if the index is in range. -/
def indexed {α : Type} (i : Instr) (s : State) (sel : Option α) (run : α → State) : Result :=
  match s.phase, sel with
  | .idle, _ => .next (s.raise .badOrder (encode i))
  | .process, none => .next (s.raise .badChannel (encode i))
  | .process, some x => .next (run x)

/-- The input lane of a number in `0..NIN-1`. -/
def State.inLaneAt (s : State) (n : Nat) : Option InChannel :=
  if n < s.cfg.nin then s.ins[n]? else none

/-- The input lane of an index in `0..NIN-1`. -/
def State.inLane (s : State) (idx : BitVec 4) : Option InChannel := s.inLaneAt idx.toNat

/-- The output lane of an index in `0..NOUT-1`. -/
def State.outLane (s : State) (idx : BitVec 4) : Option OutChannel :=
  if idx.toNat < s.cfg.nout then s.outs[idx.toNat]? else none

/-- Write one input lane. -/
def State.setIn (s : State) (idx : BitVec 4) (c : InChannel) : State :=
  { s with ins := s.ins.setIfInBounds idx.toNat c }

/-- Write one output lane. -/
def State.setOut (s : State) (idx : Nat) (c : OutChannel) : State :=
  { s with outs := s.outs.setIfInBounds idx c }

/-- A query answers and changes no state (20_memory.md R85). -/
def queryIn (i : Instr) (idx : BitVec 4) (s : State) (answer : InChannel → Word) : Result :=
  indexed i s (s.inLane idx) fun c => s.respond (answer c)

/-- A query of an output lane. -/
def queryOut (i : Instr) (idx : BitVec 4) (s : State) (answer : OutChannel → Word) : Result :=
  indexed i s (s.outLane idx) fun c => s.respond (answer c)

/-- `for ch in 0..n-1`: `f` on every lane that exists. -/
def mapLive {α : Type} {slots : Nat} (n : Nat) (f : α → α) (v : Vector α slots) : Vector α slots :=
  v.mapIdx fun i c => if i < n then f c else c

/-- The messages `f` emits for the output lanes that exist, in ascending order. -/
def emitsLive (nout : Nat) (f : OutChannel → List OutMsg) (v : Vector OutChannel noutMax) :
    List OutMsg :=
  (v.toList.take nout).flatMap f

/-- `for ch in 0..NOUT-1` on the state. -/
def State.forOutputs (s : State) (f : OutChannel → OutChannel) : State :=
  { s with outs := mapLive s.cfg.nout f s.outs }

/-- `for each matching ch`: the outputs whose MIDI channel is `mch` (42_midi_in.md R194). -/
def State.forMatching (s : State) (mch : BitVec 4) (f : OutChannel → OutChannel) : State :=
  s.forOutputs fun c => if c.mapMch = mch then f c else c

/-- `Emit`: append to `midi_tx` (00_scope.md R10). -/
def State.emit (s : State) (msgs : List OutMsg) : State :=
  { s with midi := { s.midi with tx := s.midi.tx ++ msgs } }

/-- The random word `RngDraw()` reads, and the state in which the draw is counted
(41_frame_io.md R172). -/
def State.drawn (s : State) : State := { s with rngDraws := s.rngDraws + 1 }

/-- `remove(st, n)` (42_midi_in.md R193). -/
def removeNote (st : List NoteEntry) (n : BitVec 7) : List NoteEntry :=
  st.eraseP fun e => e.note == n

/-- `push(st, n, v)` (R193). -/
def pushNote (st : List NoteEntry) (n v : BitVec 7) : List NoteEntry :=
  removeNote st n ++ [{ note := n, velocity := v }]

/-- `last(st)`, none of an empty stack (R193). -/
def lastNote (st : List NoteEntry) : Option NoteEntry := st.getLast?

/-- `first(st)` (R193). -/
def firstNote (st : List NoteEntry) : Option NoteEntry := st.head?

/-- `nth(st, k)`: the entry at index `max(size(st) - k, 0)` (R193). -/
def nthNote (st : List NoteEntry) (k : Nat) : Option NoteEntry := st[st.length - k]?

/-- `minn(st)`: linear scan for the smallest note (R193). -/
def minNote : List NoteEntry → Option NoteEntry
  | [] => none
  | e :: st =>
    match minNote st with
    | some m => if m.note < e.note then some m else some e
    | none => some e

/-- `maxn(st)`: linear scan for the largest note (R193). -/
def maxNote : List NoteEntry → Option NoteEntry
  | [] => none
  | e :: st =>
    match maxNote st with
    | some m => if e.note < m.note then some m else some e
    | none => some e

/-- The note stack of a MIDI channel (10_state.md R38). -/
def MidiState.stackOf (m : MidiState) (mch : BitVec 4) : List NoteEntry :=
  m.stack[mch.toNat]'mch.isLt

/-- Write the note stack of a MIDI channel. -/
def MidiState.setStack (m : MidiState) (mch : BitVec 4) (st : List NoteEntry) : MidiState :=
  { m with stack := m.stack.set mch.toNat st mch.isLt }

/-- The tempo of a BPM value: `bpm <- b; beat_ticks <- TICKS_PER_MIN div b`
(44_clock_engine.md R271, 45_config.md R304). -/
def ClockState.setTempo (k : ClockState) (cfg : Config) (b : Nat) : ClockState :=
  { k with bpm := fitNat 9 b, beatTicks := fitNat 20 (Config.quotient cfg.ticksPerMin b) }

/-- The tempo of a measured beat of `t` ticks (R271). The second assignment reads what `beat_ticks`
holds after the first, also where that is the free value of log 5. -/
def ClockState.setMeasured (k : ClockState) (cfg : Config) (t : Nat) : ClockState :=
  let beat : BitVec 20 := fitNat 20 (clampNat t cfg.btMin cfg.btMax)
  { k with beatTicks := beat,
           bpm := fitNat 9
             (clampNat (Config.quotient cfg.ticksPerMin beat.toNat) cfg.bpmMin cfg.bpmMax) }

end Sys2Proof.Machine
end

