-- ==== Sys2Proof/Machine/ConfigRegs.lean ====
section
/-! DEFINITION. Configuration and status register access, 45_config.md. -/

namespace Sys2Proof.Machine

/-- The output lane a per-channel register belongs to. -/
def State.lane (s : State) (ch : BitVec 3) : OutChannel := s.outs[ch.toNat]'ch.isLt

/-- Write one lane through a register. -/
def State.updateLane (s : State) (ch : BitVec 3) (f : OutChannel → OutChannel) : State :=
  s.setOut ch.toNat (f (s.lane ch))

/-- The value of a register: its fields in their bit positions, reserved bits 0 (R301,
10_state.md R62, R63). -/
def readReg (r : Reg) (s : State) : BitVec 16 :=
  match r with
  | .ctrl => 0#15 ++ BitVec.ofBool s.midi.autoOut
  | .clkDiv => 0#8 ++ s.midi.clkDiv
  | .clkSkip => 0#9 ++ s.clkSkip
  | .bpm => 0#7 ++ s.clk.bpm
  | .shuffle => 0#9 ++ s.clk.shuffle
  | .syncPpqn => 0#11 ++ s.clk.syncPpqn
  | .syncSrc => 0#13 ++ s.clk.syncSrc
  | .moHold => s.midi.moHold
  | .mapa ch => 0#3 ++ (s.lane ch).mapFn.bits ++ 0#4 ++ (s.lane ch).mapMch
  | .mapb ch => 0#8 ++ BitVec.ofBool (s.lane ch).ccUnset ++ (s.lane ch).mapCc
  | .mult ch => 0#8 ++ (s.lane ch).mult
  | .mo ch => 0#6 ++ (s.lane ch).moFn.bits ++ 0#4 ++ (s.lane ch).moChan
  | .status => statusWord s
  | .tickLo => s.tickCount.extractLsb' 0 16
  | .tickHi => s.tickCount.extractLsb' 16 16
  | .rngDraws => s.rngDraws.extractLsb' 0 16
  | .sustain => s.midi.sustain
  | .semitone => 0#4 ++ s.midi.semitoneMask
  | .beatTicksLo => s.clk.beatTicks.extractLsb' 0 16
  | .beatTicksHi => 0#12 ++ s.clk.beatTicks.extractLsb' 16 4
  | .rxqLevel => 0#8 ++ BitVec.ofNat 8 s.midi.rx.length
  | .ppqnCnt => 0#8 ++ s.midi.ppqnCnt

/-- The effect of a legal write: each field of the register takes its bits of `val`, and a write of
`BPM` sets both halves of the tempo (R300, R304). A status register has no write. -/
def writeReg (r : Reg) (val : BitVec 16) (s : State) : State :=
  match r with
  | .ctrl => { s with midi := { s.midi with autoOut := val.getLsbD 0 } }
  | .clkDiv => { s with midi := { s.midi with clkDiv := val.extractLsb' 0 8 } }
  | .clkSkip => { s with clkSkip := val.extractLsb' 0 7 }
  | .bpm => { s with clk := s.clk.setTempo s.cfg val.toNat }
  | .shuffle => { s with clk := { s.clk with shuffle := val.extractLsb' 0 7 } }
  | .syncPpqn => { s with clk := { s.clk with syncPpqn := val.extractLsb' 0 5 } }
  | .syncSrc => { s with clk := { s.clk with syncSrc := val.extractLsb' 0 3 } }
  | .moHold => { s with midi := { s.midi with moHold := val } }
  | .mapa ch => s.updateLane ch fun c =>
      { c with mapMch := val.extractLsb' 0 4, mapFn := MapFn.ofBits (val.extractLsb' 8 5) }
  | .mapb ch => s.updateLane ch fun c =>
      { c with mapCc := val.extractLsb' 0 7, ccUnset := val.getLsbD 7 }
  | .mult ch => s.updateLane ch fun c => { c with mult := val.extractLsb' 0 8 }
  | .mo ch => s.updateLane ch fun c =>
      { c with moChan := val.extractLsb' 0 4, moFn := MoFn.ofBits (val.extractLsb' 8 2) }
  | .status | .tickLo | .tickHi | .rngDraws | .sustain | .semitone | .beatTicksLo
  | .beatTicksHi | .rxqLevel | .ppqnCnt => s

/-- `CFGW addr, val`, legal in either phase: the address is checked before the value (R300, R302,
R303, R305). -/
def execCfgw (addr : BitVec 8) (val : BitVec 16) (s : State) : Result :=
  match (regAt s.cfg.nout addr).filter Reg.writable with
  | none => .next (s.raise .badRegister (encode (.cfgw addr val)))
  | some r =>
    if legalValue s.cfg r val then .next ((writeReg r val s).respond 0)
    else .next (s.raise .badValue (encode (.cfgw addr val)))

/-- `CFGR addr`, legal in either phase (R301, R302). -/
def execCfgr (addr : BitVec 8) (s : State) : Result :=
  match regAt s.cfg.nout addr with
  | none => .next (s.raise .badRegister (encode (.cfgr addr)))
  | some r => .next (s.respond (regWord (readReg r s)))

end Sys2Proof.Machine
end

