-- ==== Sys2Proof/Machine/FrameIo.lean ====
section
/-! DEFINITION. Frame reads and writes, clock outputs and the ADC lag protocol: the commands of
41_frame_io.md. -/

namespace Sys2Proof.Machine

/-- `IN idx` (R160). -/
def execReadIn (idx : BitVec 4) (s : State) : Result :=
  queryIn (.readIn idx) idx s fun c => codeWord c.inCv

/-- `GATE idx` (R161). -/
def execGate (idx : BitVec 4) (s : State) : Result :=
  queryIn (.gate idx) idx s fun c => flagWord c.gateHigh

/-- `CLOCK idx` (R162). -/
def execClock (idx : BitVec 4) (s : State) : Result :=
  queryIn (.clock idx) idx s fun c => flagWord c.clocked

/-- `TSC idx` (R163). -/
def execTsc (idx : BitVec 4) (s : State) : Result :=
  queryIn (.tsc idx) idx s fun c => c.tsc

/-- `CHANGED idx` (R164). -/
def execChanged (idx : BitVec 4) (s : State) : Result :=
  queryIn (.changed idx) idx s fun c => flagWord c.changedCv

/-- `LASTCV idx` (R165). -/
def execLastcv (idx : BitVec 4) (s : State) : Result :=
  queryIn (.lastcv idx) idx s fun c => codeWord c.lastCv

/-- `ISLAG idx` (R177). -/
def execIslag (idx : BitVec 4) (s : State) : Result :=
  queryIn (.islag idx) idx s fun c => flagWord (c.lagCd == 0)

/-- `LOOP idx` (R173). -/
def execLoop (idx : BitVec 4) (s : State) : Result :=
  queryOut (.loop idx) idx s fun c => flagWord c.loop

/-- `OUTQ idx` (R174). -/
def execOutq (idx : BitVec 4) (s : State) : Result :=
  queryOut (.outq idx) idx s fun c => codeWord c.out

/-- Write an output value; a rise through the gate threshold sets the loopback flag (R170). -/
def OutChannel.write (cfg : Config) (v : Code) (c : OutChannel) : OutChannel :=
  { c with out := v, loop := loopAfter cfg c.out v c.loop }

/-- `OUT idx, imm16` (R170): the immediate is a signed code (30_encoding.md R104). -/
def execOut (idx : BitVec 4) (imm : BitVec 16) (s : State) : Result :=
  indexed (.out idx imm) s (s.outLane idx) fun c =>
    (s.setOut idx.toNat (c.write s.cfg imm)).respond 0

/-- A clock pulse of `len` ticks begins on an output (R171): the loopback flag is set if the
output was not high before. -/
def OutChannel.pulse (cfg : Config) (len : BitVec 16) (c : OutChannel) : OutChannel :=
  { c with out := toCode cfg.gateHighCode, clockCd := len, loop := c.loop || !high cfg c.out }

/-- Whether `CLKOUT` skips: a draw is made only when `clk_skip` is not 0 (R171). -/
def State.skipsPulse (s : State) : Bool :=
  s.clkSkip != 0 && decide (s.inputs.rng.toNat % 100 < s.clkSkip.toNat)

/-- The state after `CLKOUT`'s draw, if it makes one (R171, R172). -/
def State.afterDraw (s : State) : State := if s.clkSkip = 0 then s else s.drawn

/-- `CLKOUT idx, imm16` (R171): the immediate is an unsigned tick count (R104). -/
def execClkout (idx : BitVec 4) (imm : BitVec 16) (s : State) : Result :=
  indexed (.clkout idx imm) s (s.outLane idx) fun c =>
    if s.skipsPulse then s.afterDraw.respond 1
    else (s.afterDraw.setOut idx.toNat (c.pulse s.cfg imm)).respond 0

/-- `STARTLAG idx` (R176). -/
def execStartlag (idx : BitVec 4) (s : State) : Result :=
  indexed (.startlag idx) s (s.inLane idx) fun c =>
    (s.setIn idx { c with lagCd := fitNat 8 s.cfg.adcLagTicks }).respond 0

end Sys2Proof.Machine
end

