-- ==== Sys2Proof/Machine/MidiQuery.lean ====
section
/-! DEFINITION. MIDI state queries: the commands of 43_midi_query_out.md sections 1 and 2. -/

namespace Sys2Proof.Machine

/-- A query of a MIDI channel: all 16 indices are legal, so only `BadOrder` can arise (R230). -/
def queryMidi (i : Instr) (s : State) (answer : Word) : Result := inProcess i s (s.respond answer)

/-- `NLAST idx` (R230). -/
def execNlast (idx : BitVec 4) (s : State) : Result :=
  queryMidi (.nlast idx) s (entryAnswer (lastNote (s.midi.stackOf idx)))

/-- `NMIN idx` (R231). -/
def execNmin (idx : BitVec 4) (s : State) : Result :=
  queryMidi (.nmin idx) s (entryAnswer (minNote (s.midi.stackOf idx)))

/-- `NMAX idx` (R232). -/
def execNmax (idx : BitVec 4) (s : State) : Result :=
  queryMidi (.nmax idx) s (entryAnswer (maxNote (s.midi.stackOf idx)))

/-- `NFIRST idx` (R233). -/
def execNfirst (idx : BitVec 4) (s : State) : Result :=
  queryMidi (.nfirst idx) s (entryAnswer (firstNote (s.midi.stackOf idx)))

/-- `SUSQ idx` (R234). -/
def execSusq (idx : BitVec 4) (s : State) : Result :=
  queryMidi (.susq idx) s (flagWord (sustained s.midi.sustain idx))

/-- `NSIZE idx` (R235). -/
def execNsize (idx : BitVec 4) (s : State) : Result :=
  queryMidi (.nsize idx) s (BitVec.ofNat 32 (s.midi.stackOf idx).length)

/-- `MOUT idx` (R236). -/
def execMout (idx : BitVec 4) (s : State) : Result :=
  queryOut (.mout idx) idx s fun c => codeWord c.mOut

/-- `MTRIG idx` (R237). -/
def execMtrig (idx : BitVec 4) (s : State) : Result :=
  queryOut (.mtrig idx) idx s fun c => flagWord c.mTrig

/-- The answer of a log position: the entry's word, or all ones beyond the log's length (R238). -/
def logAnswer (log : List LogEntry) (pos : Nat) : Word :=
  match log[pos]? with
  | some e => logWord e
  | none => allOnes

/-- `LOGR idx` (R238): positions `0..LOG_DEPTH-1` are in range. -/
def execLogr (idx : BitVec 4) (s : State) : Result :=
  indexed (.logr idx) s (if idx.toNat < s.cfg.logDepth then some idx.toNat else none) fun pos =>
    s.respond (logAnswer s.midi.log pos)

end Sys2Proof.Machine
end

