-- ==== Sys2Proof/Machine/Clock.lean ====
section
/-! DEFINITION. The clock and tempo engine of 44_clock_engine.md: transitions, tap tempo,
multiply, divide and shuffle, external sync, MIDI clock emission, and the commands PLAYSTOP, TAP
and TOCK. -/

namespace Sys2Proof.Machine

/-- `StartActions()` on the engine's own registers (R267). -/
def ClockState.started (k : ClockState) : ClockState :=
  { k with beatPos := 0, beatCount := 0, syncCnt := 0, syncSeen := false, sinceSync := 0 }

/-- `StartActions()` (R267). -/
def State.startActions (s : State) : State :=
  { s.forOutputs (fun c => { c with pulsePar := false, shufCd := 0 }) with clk := s.clk.started }

/-- `StopActions()` (R268): pending shuffled pulses and the sync lock are dropped. -/
def State.stopActions (s : State) : State :=
  { s.forOutputs (fun c => { c with shufCd := 0 }) with
    clk := { s.clk with syncSeen := false } }

/-- `clk_state <- p`. -/
def State.setClkState (s : State) (p : ClkState) : State :=
  { s with clk := { s.clk with state := p } }

/-- `ClockMidiStart()` (R264). -/
def State.clockMidiStart (s : State) : State :=
  ({ s with clk := { s.clk with state := .running, emitClk := false } }).startActions

/-- `ClockMidiStop()` (R265). -/
def State.clockMidiStop (s : State) : State :=
  ({ s with clk := { s.clk with state := .stopped, emitClk := true } }).stopActions

/-- The cycle RUNNING, STOPPED, PAUSED, RUNNING (R262). -/
def State.togglePlay (s : State) : State :=
  match s.clk.state with
  | .running => (s.setClkState .stopped).stopActions
  | .stopped => s.setClkState .paused
  | .paused => (s.setClkState .running).startActions

/-- The sum of the held tap intervals. -/
def tapSum (buf : List (BitVec 32)) : Nat := (buf.map BitVec.toNat).sum

/-- The tempo of an average interval of `avg` ticks (R269). -/
def tapBpm (cfg : Config) (avg : Nat) : Nat :=
  if avg = 0 then cfg.bpmMax else clampNat (cfg.ticksPerMin / avg) cfg.bpmMin cfg.bpmMax

/-- What one interval between presses does (R269): too long, the buffer resets; otherwise it is
stored, and the last one of a gesture sets the tempo. -/
def ClockState.tapInterval (k : ClockState) (cfg : Config) (iv : BitVec 32) : ClockState :=
  if cfg.tapMaxTicks < iv.toNat then { k with tapN := 0 }
  else
    let buf := k.tapBuf.set k.tapN iv
    if k.tapN + 1 = cfg.tapN then
      ({ k with tapBuf := buf, tapN := 0 }).setTempo cfg (tapBpm cfg (tapSum buf / cfg.tapN))
    else { k with tapBuf := buf, tapN := k.tapN + 1 }

/-- One press of the tap-tempo button at tick `now` (R269). -/
def ClockState.tapPress (k : ClockState) (cfg : Config) (now : BitVec 32) : ClockState :=
  { (if k.lastTapValid then k.tapInterval cfg (now - k.lastTap) else k) with
    lastTap := now, lastTapValid := true }

/-- The nominal pulse schedule of a multiplier at a beat position (R272, R274): `some period` if
the position is one of the channel's nominal pulses. -/
def nominalPulse (cfg : Config) (mult : BitVec 8) (beat pos count : Nat) : Option Nat :=
  let n := mult.toInt
  if 0 < n then
    let m := n.toNat + cfg.multPosOffset
    if (List.range m).any fun k => k * beat / m == pos then some (beat / m) else none
  else if n < 0 then
    let d := (-n).toNat + 1
    if pos = 0 ∧ count % d = 0 then some (beat * d) else none
  else none

/-- `ChannelPulse(ch)` (R274): first a delayed pulse may come due, then a nominal pulse fires at
once or, on odd parity, is delayed. -/
def channelPulse (cfg : Config) (k : ClockState) (c : OutChannel) : OutChannel :=
  let cd := if c.shufCd = 0 then 0 else c.shufCd - 1
  let due := c.shufCd != 0 && cd == 0
  match nominalPulse cfg c.mult k.beatTicks.toNat k.beatPos.toNat k.beatCount.toNat with
  | none => { c with shufCd := cd, tock := due }
  | some period =>
    let delay := if c.pulsePar then shuffleDelay cfg period k.shuffle.toNat else 0
    if delay = 0 then { c with shufCd := cd, pulsePar := !c.pulsePar, tock := true }
    else { c with shufCd := fitNat 32 delay, pulsePar := !c.pulsePar, tock := due }

/-- Whether a MIDI Clock message is due at the beat position (R279). -/
def midiClockDue (cfg : Config) (k : ClockState) : Bool :=
  k.emitClk && (List.range cfg.midiPpqn).any fun j =>
    j * k.beatTicks.toNat / cfg.midiPpqn == k.beatPos.toNat

/-- `MidiClockEmit()` (R279). -/
def State.midiClockEmit (s : State) : State :=
  if midiClockDue s.cfg s.clk then s.emit [{ status := 0xF8, d1 := 0, d2 := 0 }] else s

/-- `Advance()` (R278). -/
def ClockState.advance (k : ClockState) : ClockState :=
  let pos := satSucc k.beatPos
  if !k.syncSeen && decide (k.beatTicks.toNat ≤ pos.toNat) then
    { k with beatPos := 0, beatCount := k.beatCount + 1 }
  else { k with beatPos := pos }

/-- The beat length a re-measurement yields: rule R277, or a free value where the reconciliation
is left open (93_implementation_defined.md U2, log 7). -/
def measuredBeat (cfg : Config) (k : ClockState) : Nat :=
  match cfg.reconciliation with
  | .lastSpacing => k.sinceSync.toNat * k.syncPpqn.toNat
  | .free id => Config.freeBeat id k.pulses

/-- `Reconcile()` (R277). -/
def ClockState.reconcile (k : ClockState) (cfg : Config) : ClockState :=
  k.setMeasured cfg (measuredBeat cfg k)

/-- The pulse is noted for an open reconciliation (log 7). -/
def ClockState.notePulse (k : ClockState) : ClockState :=
  { k with pulses := { locked := k.syncSeen, since := k.sinceSync, ppqn := k.syncPpqn } :: k.pulses }

/-- The part of `ExternalSyncPulse()` that follows the transition to RUNNING (R276). -/
def ClockState.syncPulse (k : ClockState) (cfg : Config) : ClockState :=
  let k0 := k.notePulse
  let k1 := if k0.syncSeen then k0.reconcile cfg else k0
  let k2 := if k1.syncCnt = 0 ∧ k1.beatPos ≠ 0 then
    { k1 with beatPos := 0, beatCount := k1.beatCount + 1 } else k1
  { k2 with syncCnt := BitVec.ofNat 5 ((k2.syncCnt.toNat + 1) % k2.syncPpqn.toNat),
            syncSeen := true, sinceSync := 0 }

/-- `ExternalSyncPulse()` (R276). -/
def State.externalSync (s : State) : State :=
  let t := if s.clk.state = .paused then (s.setClkState .running).startActions else s
  { t with clk := t.clk.syncPulse t.cfg }

/-- Whether the selected input carries a sync pulse this tick (R270, 10_state.md R72). -/
def State.syncClocked (s : State) : Bool :=
  match s.inLaneAt s.clk.syncSrc.toNat with
  | some c => c.clocked
  | none => false

/-- `since_sync` at the top of the clock step (R270). -/
def State.countSinceSync (s : State) : State :=
  if s.clk.state = .running then
    { s with clk := { s.clk with sinceSync := satSucc s.clk.sinceSync } }
  else s

/-- The clock step's work while RUNNING (R270). -/
def State.runBeat (s : State) : State :=
  let t := (s.forOutputs (channelPulse s.cfg s.clk)).midiClockEmit
  { t with clk := t.clk.advance }

/-- The clock step, L6 of LOAD (R270, 40_tick_phases.md R139). -/
def State.clockStep (s : State) : State :=
  let s1 := s.countSinceSync
  let s2 := if s1.syncClocked && s1.clk.state != .stopped then s1.externalSync else s1
  if s2.clk.state = .running then s2.runBeat else s2

/-- `PLAYSTOP` (R262). -/
def execPlaystop (s : State) : Result := inProcess .playstop s (s.togglePlay.respond 0)

/-- `TAP` (R269). -/
def execTap (s : State) : Result :=
  inProcess .tap s (({ s with clk := s.clk.tapPress s.cfg s.tickCount }).respond 0)

/-- `TOCK idx` (R275). -/
def execTock (idx : BitVec 4) (s : State) : Result :=
  queryOut (.tock idx) idx s fun c => flagWord c.tock

end Sys2Proof.Machine
end

