-- ==== Sys2Proof/Machine/MidiIn.lean ====
section
/-! DEFINITION. Inbound MIDI, 42_midi_in.md: the immediate part of the `M.*` commands, and their
deferred parts, which the next LOAD runs. -/

namespace Sys2Proof.Machine

/-- The dispatched message types with their MIDI channel (R192). -/
inductive MsgKind where
  | noteOff (mch : BitVec 4)
  | noteOn (mch : BitVec 4)
  | atPoly (mch : BitVec 4)
  | cc (mch : BitVec 4)
  | atChan (mch : BitVec 4)
  | pbend (mch : BitVec 4)
  | clock
  | start
  | cont
  | stop
  | sysReset
  deriving DecidableEq, Repr

/-- Type decoding of a queued message; none where the type is not dispatched (R192). -/
def MidiMsg.kind (m : MidiMsg) : Option MsgKind :=
  let mch := m.status.extractLsb' 0 4
  match m.status.extractLsb' 4 4 with
  | 0x8#4 => some (.noteOff mch)
  | 0x9#4 => some (.noteOn mch)
  | 0xA#4 => some (.atPoly mch)
  | 0xB#4 => some (.cc mch)
  | 0xD#4 => some (.atChan mch)
  | 0xE#4 => some (.pbend mch)
  | 0xF#4 =>
    match mch with
    | 0x8#4 => some .clock
    | 0xA#4 => some .start
    | 0xB#4 => some .cont
    | 0xC#4 => some .stop
    | 0xF#4 => some .sysReset
    | _ => none
  | _ => none

/-- `typ`, the byte the log keeps: the type without the channel nibble (R192, R195). -/
def MsgKind.typ : MsgKind → BitVec 8
  | .noteOff _ => 0x80
  | .noteOn _ => 0x90
  | .atPoly _ => 0xA0
  | .cc _ => 0xB0
  | .atChan _ => 0xD0
  | .pbend _ => 0xE0
  | .clock => 0xF8
  | .start => 0xFA
  | .cont => 0xFB
  | .stop => 0xFC
  | .sysReset => 0xFF

/-- The immediate part of every `M.*` command (R190, R191): append, or drop and set `rxq_ovf`. -/
def State.enqueue (s : State) (m : MidiMsg) : State :=
  let midi := if s.cfg.rxqDepth ≤ s.midi.rx.length then { s.midi with rxqOvf := true }
    else { s.midi with rx := s.midi.rx ++ [m] }
  ({ s with midi := midi }).respond 0

/-- Insert into the activity log, evicting the oldest entry of a full one (R195). -/
def logInsert (depth : Nat) (log : List LogEntry) (e : LogEntry) : List LogEntry :=
  (if log.length = depth then log.tail else log) ++ [e]

/-- The activity log update: every dispatched message except Clock (R195). -/
def State.logMessage (s : State) (k : MsgKind) (m : MidiMsg) : State :=
  match k with
  | .clock => s
  | _ => { s with midi := { s.midi with
      log := logInsert s.cfg.logDepth s.midi.log { msg := k.typ, d1 := m.d1, d2 := m.d2 } } }

/-- The note a note-class function selects (R200); none for other functions or an empty stack. -/
def selectedNote (fn : MapFn) (st : List NoteEntry) : Option Nat :=
  match fn with
  | .noteLast => (lastNote st).map fun e => e.note.toNat
  | .notePoly2 => (nthNote st 2).map fun e => e.note.toNat
  | .notePoly3 => (nthNote st 3).map fun e => e.note.toNat
  | .notePoly4 => (nthNote st 4).map fun e => e.note.toNat
  | .noteMin => (minNote st).map fun e => e.note.toNat
  | .noteMax => (maxNote st).map fun e => e.note.toNat
  | .notePedal => (firstNote st).map fun e => e.note.toNat
  | .noteInv => (lastNote st).map fun e => 127 - e.note.toNat
  | .off | .velocity | .gate | .trigAlways | .trigFirst | .cc | .aftertouch | .pitchbend | .clock
  | .start => none

/-- `m_out[ch] <- NoteSel(map_fn[ch], st)` for a note-class output and a non-empty stack; any other
output keeps its value (R200). -/
def OutChannel.selectNote (cfg : Config) (st : List NoteEntry) (c : OutChannel) : OutChannel :=
  match selectedNote c.mapFn st with
  | some n => { c with mOut := noteCV cfg n }
  | none => c

/-- The code of a high gate. -/
def gateHigh (cfg : Config) : Code := toCode cfg.gateHighCode

/-- What a Note-On does to a matching output, `st` the stack after the push (R199, R201). -/
def OutChannel.onNoteOn (cfg : Config) (st : List NoteEntry) (vel : BitVec 7) (c : OutChannel) :
    OutChannel :=
  match c.mapFn with
  | .noteLast | .notePoly2 | .notePoly3 | .notePoly4 | .noteMin | .noteMax | .notePedal
  | .noteInv => c.selectNote cfg st
  | .velocity => { c with mOut := prop7 cfg vel }
  | .gate => { c with mOut := gateHigh cfg }
  | .trigAlways => { c with mTrig := true }
  | .trigFirst => { c with mTrig := c.mTrig || st.length == 1 }
  | .off | .cc | .aftertouch | .pitchbend | .clock | .start => c

/-- The deferred part of `M.NOTEON` (R199). -/
def State.onNoteOn (s : State) (mch : BitVec 4) (m : MidiMsg) : State :=
  let st := pushNote (s.midi.stackOf mch) m.d1 m.d2
  ({ s with midi := { s.midi.setStack mch st with
      semitoneMask := s.midi.semitoneMask ||| semitoneBit m.d1 } }).forMatching mch
    (OutChannel.onNoteOn s.cfg st m.d2)

/-- What a Note-Off does to a matching output when the channel is not sustained, `st` the stack
after the removal (R204). -/
def OutChannel.onNoteOff (cfg : Config) (st : List NoteEntry) (c : OutChannel) : OutChannel :=
  match c.mapFn with
  | .noteLast | .notePoly2 | .notePoly3 | .notePoly4 | .noteMin | .noteMax | .notePedal
  | .noteInv => c.selectNote cfg st
  | .gate => if st.isEmpty then { c with mOut := 0 } else c
  | .off | .velocity | .trigAlways | .trigFirst | .cc | .aftertouch | .pitchbend | .clock
  | .start => c

/-- The deferred part of `M.NOTEOFF` (R204): the stack is updated even while sustained, the outputs
only when not. -/
def State.onNoteOff (s : State) (mch : BitVec 4) (m : MidiMsg) : State :=
  let st := removeNote (s.midi.stackOf mch) m.d1
  let t := { s with midi := s.midi.setStack mch st }
  if sustained s.midi.sustain mch then t
  else t.forMatching mch (OutChannel.onNoteOff s.cfg st)

/-- A gate-type output is forced low (R198, R207). -/
def OutChannel.gateOff (c : OutChannel) : OutChannel :=
  if c.mapFn = .gate then { c with mOut := 0 } else c

/-- The pedal goes down (R206). -/
def State.sustainOn (s : State) (mch : BitVec 4) : State :=
  if sustained s.midi.sustain mch then s
  else { s with midi := { s.midi with sustain := setSustain s.midi.sustain mch } }

/-- The pedal comes up (R207). -/
def State.sustainOff (s : State) (mch : BitVec 4) : State :=
  let t := { s with midi := { s.midi with sustain := clearSustain s.midi.sustain mch } }
  if (s.midi.stackOf mch).isEmpty then t.forMatching mch OutChannel.gateOff else t

/-- What another controller's value does to a matching output: learn, then pass through a match
(R208). -/
def OutChannel.onCc (cfg : Config) (num val : BitVec 7) (c : OutChannel) : OutChannel :=
  if c.mapFn = .cc then
    let l := if c.ccUnset then { c with mapCc := num, ccUnset := false } else c
    if l.mapCc = num then { l with mOut := prop7 cfg val } else l
  else c

/-- The deferred part of `M.CC` (R205 to R208). -/
def State.onCc (s : State) (mch : BitVec 4) (m : MidiMsg) : State :=
  if m.d1 = 64 then
    if 64 ≤ m.d2.toNat then s.sustainOn mch else s.sustainOff mch
  else s.forMatching mch (OutChannel.onCc s.cfg m.d1 m.d2)

/-- An aftertouch output takes a pressure. -/
def OutChannel.onPressure (cfg : Config) (val : BitVec 7) (c : OutChannel) : OutChannel :=
  if c.mapFn = .aftertouch then { c with mOut := prop7 cfg val } else c

/-- The deferred part of `M.ATPOLY` (R210): only the most recent note's pressure counts. -/
def State.onAtPoly (s : State) (mch : BitVec 4) (m : MidiMsg) : State :=
  if (lastNote (s.midi.stackOf mch)).map NoteEntry.note = some m.d1 then
    s.forMatching mch (OutChannel.onPressure s.cfg m.d2)
  else s

/-- The deferred part of `M.ATCHAN` (R211). -/
def State.onAtChan (s : State) (mch : BitVec 4) (m : MidiMsg) : State :=
  s.forMatching mch (OutChannel.onPressure s.cfg m.d1)

/-- A pitch-bend output takes a 14-bit value (R212). -/
def OutChannel.onBend (cfg : Config) (v14 : Nat) (c : OutChannel) : OutChannel :=
  if c.mapFn = .pitchbend then { c with mOut := prop14 cfg v14 } else c

/-- The deferred part of `M.PBEND` (R212). -/
def State.onPbend (s : State) (mch : BitVec 4) (m : MidiMsg) : State :=
  s.forMatching mch (OutChannel.onBend s.cfg (bendValue m.d1 m.d2))

/-- A trigger request on the outputs of one function (R196, R197). -/
def OutChannel.requestTrig (fn : MapFn) (c : OutChannel) : OutChannel :=
  if c.mapFn = fn then { c with mTrig := true } else c

/-- The deferred part of `M.CLOCK` (R196): counted before it is compared. -/
def State.onClock (s : State) : State :=
  if s.midi.clkDiv.toNat ≤ s.midi.ppqnCnt.toNat + 1 then
    ({ s with midi := { s.midi with ppqnCnt := 0, clkTick := true } }).forOutputs
      (OutChannel.requestTrig .clock)
  else { s with midi := { s.midi with ppqnCnt := s.midi.ppqnCnt + 1 } }

/-- The transport starts (R197), the one case the source makes of Start and Continue. -/
def State.transportStart (s : State) : State :=
  (({ s with midi := { s.midi with running := true, ppqnCnt := 0 } }).forOutputs
    (OutChannel.requestTrig .start)).clockMidiStart

/-- The transport stops, the panic (R198), the one case of Stop and SystemReset. -/
def State.transportStop (s : State) : State :=
  let midi := { s.midi with
    running := false
    stack := Vector.replicate nmidiMax []
    sustain := 0
    semitoneMask := 0 }
  (({ s with midi := midi }).forOutputs OutChannel.gateOff).clockMidiStop

/-- The deferred part of `M.START` (R197). -/
def State.onStart (s : State) : State := s.transportStart

/-- The deferred part of `M.CONT` (R215). -/
def State.onCont (s : State) : State := s.transportStart

/-- The deferred part of `M.STOP` (R198). -/
def State.onStop (s : State) : State := s.transportStop

/-- The deferred part of `M.RESET` (R216). -/
def State.onSysReset (s : State) : State := s.transportStop

/-- The rule of a dispatched type (R194). -/
def State.onKind (s : State) (k : MsgKind) (m : MidiMsg) : State :=
  match k with
  | .noteOff mch => s.onNoteOff mch m
  | .noteOn mch => s.onNoteOn mch m
  | .atPoly mch => s.onAtPoly mch m
  | .cc mch => s.onCc mch m
  | .atChan mch => s.onAtChan mch m
  | .pbend mch => s.onPbend mch m
  | .clock => s.onClock
  | .start => s.onStart
  | .cont => s.onCont
  | .stop => s.onStop
  | .sysReset => s.onSysReset

/-- `ProcessMIDIMsg` (R194): the log first, then the type's rule; a message of no dispatched type
is discarded, which is the deferred part of `M.OTHER` (R213). -/
def State.processMidi (s : State) (m : MidiMsg) : State :=
  match m.kind with
  | some k => (s.logMessage k m).onKind k m
  | none => s

/-- L5 of LOAD: the queue is emptied and its messages dispatched, oldest first
(40_tick_phases.md R138). -/
def State.drainMidi (s : State) : State :=
  s.midi.rx.foldl State.processMidi { s with midi := { s.midi with rx := [] } }

/-- `M.NOTEOFF mch, d1, d2` (R190, R204). -/
def execMNoteoff (mch : BitVec 4) (d1 d2 : BitVec 7) (s : State) : Result :=
  .next (s.enqueue { status := voiceStatus 0x8 mch, d1 := d1, d2 := d2 })

/-- `M.NOTEON mch, d1, d2` (R190, R199). -/
def execMNoteon (mch : BitVec 4) (d1 d2 : BitVec 7) (s : State) : Result :=
  .next (s.enqueue { status := voiceStatus 0x9 mch, d1 := d1, d2 := d2 })

/-- `M.ATPOLY mch, d1, d2` (R190, R210). -/
def execMAtpoly (mch : BitVec 4) (d1 d2 : BitVec 7) (s : State) : Result :=
  .next (s.enqueue { status := voiceStatus 0xA mch, d1 := d1, d2 := d2 })

/-- `M.CC mch, d1, d2` (R190, R205). -/
def execMCc (mch : BitVec 4) (d1 d2 : BitVec 7) (s : State) : Result :=
  .next (s.enqueue { status := voiceStatus 0xB mch, d1 := d1, d2 := d2 })

/-- `M.ATCHAN mch, d1` (R190, R211); `d2` is carried. -/
def execMAtchan (mch : BitVec 4) (d1 d2 : BitVec 7) (s : State) : Result :=
  .next (s.enqueue { status := voiceStatus 0xD mch, d1 := d1, d2 := d2 })

/-- `M.PBEND mch, v14` (R190, R212). -/
def execMPbend (mch : BitVec 4) (d1 d2 : BitVec 7) (s : State) : Result :=
  .next (s.enqueue { status := voiceStatus 0xE mch, d1 := d1, d2 := d2 })

/-- `M.CLOCK` (R190, R196). -/
def execMClock (d1 d2 : BitVec 7) (s : State) : Result :=
  .next (s.enqueue { status := 0xF8, d1 := d1, d2 := d2 })

/-- `M.START` (R190, R197). -/
def execMStart (d1 d2 : BitVec 7) (s : State) : Result :=
  .next (s.enqueue { status := 0xFA, d1 := d1, d2 := d2 })

/-- `M.CONT` (R190, R215). -/
def execMCont (d1 d2 : BitVec 7) (s : State) : Result :=
  .next (s.enqueue { status := 0xFB, d1 := d1, d2 := d2 })

/-- `M.STOP` (R190, R198). -/
def execMStop (d1 d2 : BitVec 7) (s : State) : Result :=
  .next (s.enqueue { status := 0xFC, d1 := d1, d2 := d2 })

/-- `M.RESET` (R190, R216). -/
def execMReset (d1 d2 : BitVec 7) (s : State) : Result :=
  .next (s.enqueue { status := 0xFF, d1 := d1, d2 := d2 })

/-- `M.OTHER status, d1, d2` (R190, R213): it occupies a queue slot and nothing more. -/
def execMOther (status : BitVec 8) (d1 d2 : BitVec 7) (s : State) : Result :=
  .next (s.enqueue { status := status, d1 := d1, d2 := d2 })

end Sys2Proof.Machine
end

