-- ==== Sys2Proof/Machine/MidiOut.lean ====
section
/-! DEFINITION. The outbound note path, step S2 of SEND: 43_midi_query_out.md section 3. -/

namespace Sys2Proof.Machine

/-- A Note-Off of velocity 0 for the note an output has sounding (R134, R244). -/
def OutChannel.noteOffMsg (c : OutChannel) : OutMsg :=
  { status := voiceStatus 0x8 c.sndChan, d1 := c.sndNote.setWidth 8, d2 := 0 }

/-- The messages of `Retrigger(ch, nn)`: Note-Off of the old pitch strictly before Note-On of the
new one (R244). -/
def retriggerMsgs (cfg : Config) (nn : BitVec 7) (c : OutChannel) : List OutMsg :=
  (if c.sndValid then [c.noteOffMsg] else [])
    ++ [{ status := voiceStatus 0x9 c.moChan, d1 := nn.setWidth 8, d2 := fitNat 8 cfg.moVelocity }]

/-- What `Retrigger(ch, nn)` leaves in the output lane (R244). -/
def OutChannel.retriggered (nn : BitVec 7) (c : OutChannel) : OutChannel :=
  { c with sndValid := true, sndNote := nn, sndChan := c.moChan }

/-- What the path does to one note output in this tick (R243, R245, R246). -/
inductive PathAction where
  | quiet
  /-- `Retrigger` only. -/
  | retrigger (nn : BitVec 7)
  /-- `Retrigger`, and the release countdown is armed. -/
  | start (nn : BitVec 7)
  deriving DecidableEq, Repr

/-- The action for an output `c` whose next higher output, if there is one, is `nxt`. -/
def pathAction (cfg : Config) (c : OutChannel) (nxt : Option OutChannel) : PathAction :=
  match c.moFn with
  | .off | .gate => .quiet
  | .note =>
    let nn := cvToNote cfg c.out
    match nxt.filter fun g => g.moFn == .gate with
    | some g =>
      if risingEdge (high cfg g.prevOut) (high cfg g.out) then .start nn
      else if c.sndValid ∧ nn ≠ c.sndNote then .retrigger nn
      else .quiet
    | none => if nn ≠ cvToNote cfg c.prevOut then .retrigger nn else .quiet

/-- The lane after an action. -/
def OutChannel.afterAction (hold : BitVec 16) (c : OutChannel) : PathAction → OutChannel
  | .quiet => c
  | .retrigger nn => c.retriggered nn
  | .start nn => { c.retriggered nn with noteoffCd := hold }

/-- The messages of an action. -/
def actionMsgs (cfg : Config) (c : OutChannel) : PathAction → List OutMsg
  | .quiet => []
  | .retrigger nn => retriggerMsgs cfg nn c
  | .start nn => retriggerMsgs cfg nn c

/-- The next higher output channel, if it exists (R243: `ch + 1 < NOUT`). -/
def State.nextLane (s : State) (ch : Nat) : Option OutChannel :=
  if ch + 1 < s.cfg.nout then s.outs[ch + 1]? else none

/-- The action of output `ch` in the present state; no action of another output changes what it
reads. -/
def State.actionAt (s : State) (ch : Nat) (c : OutChannel) : PathAction :=
  if ch < s.cfg.nout then pathAction s.cfg c (s.nextLane ch) else .quiet

/-- The outbound note path over the output channels, ascending (R243). -/
def State.notePath (s : State) : State :=
  let msgs := s.outs.toList.mapIdx fun ch c => actionMsgs s.cfg c (s.actionAt ch c)
  ({ s with outs := s.outs.mapIdx fun ch c => OutChannel.afterAction s.midi.moHold c (s.actionAt ch c) }).emit
    msgs.flatten

end Sys2Proof.Machine
end

