-- ==== Sys2Proof/Machine/Tick.lean ====
section
/-! DEFINITION. The tick, 40_tick_phases.md: LOAD and SEND. -/

namespace Sys2Proof.Machine

/-- L1: the tick is counted and the Process phase begins (R131). -/
def State.beginTick (s : State) : State :=
  { s with tickCount := s.tickCount + 1, phase := .process }

/-- L2: every one-tick flag is cleared (R132). -/
def State.clearOneTick (s : State) : State :=
  { s.forOutputs OutChannel.clearFlags with midi := { s.midi with clkTick := false } }

/-- L3, the clock-output countdown: only its transition to zero forces the output low (R133). -/
def OutChannel.clockDown (c : OutChannel) : OutChannel :=
  if c.clockCd = 0 then c
  else { c with clockCd := c.clockCd - 1, out := if c.clockCd = 1 then 0 else c.out }

/-- L3, the ADC-lag countdown (R134). -/
def InChannel.lagDown (c : InChannel) : InChannel :=
  if c.lagCd = 0 then c else { c with lagCd := c.lagCd - 1 }

/-- The note-off countdown comes to zero in this LOAD while a note sounds (R134). -/
def OutChannel.releases (c : OutChannel) : Bool := c.noteoffCd == 1 && c.sndValid

/-- L3, the note-off countdown (R134). -/
def OutChannel.noteoffDown (c : OutChannel) : OutChannel :=
  if c.noteoffCd = 0 then c
  else { c with noteoffCd := c.noteoffCd - 1, sndValid := c.sndValid && !c.releases }

/-- The Note-Offs of the expiring countdowns, ascending (R134). -/
def State.releaseMsgs (s : State) : List OutMsg :=
  emitsLive s.cfg.nout (fun c => if c.releases then [c.noteOffMsg] else []) s.outs

/-- L3: the countdown step (R133, R134). -/
def State.countdowns (s : State) : State :=
  (({ s with ins := mapLive s.cfg.nin InChannel.lagDown s.ins }).forOutputs
    fun c => c.clockDown.noteoffDown).emit s.releaseMsgs

/-- L4 for one lane: debounce and edge detection, ticks since clock, CV sampling and change
detection (R135, R136, R137). -/
def InChannel.conditioned (cfg : Config) (raw : Bool) (v : Code) (c : InChannel) : InChannel :=
  let d := debounce cfg raw c.gateHigh c.dbCnt
  let edge := risingEdge c.gateHigh d.1
  let moved := cvChanged cfg c.lastCv v
  { c with dbCnt := d.2, gateHigh := d.1, clocked := edge,
           tsc := if edge then 0 else satSucc c.tsc,
           inCv := v, changedCv := moved, lastCv := if moved then v else c.lastCv }

/-- L4: signal conditioning of the sampled ports (R130, R135 to R137). -/
def State.condition (s : State) : State :=
  { s with ins := s.ins.mapFinIdx fun ch c h =>
      if ch < s.cfg.nin then c.conditioned s.cfg s.inputs.gateIn[ch] s.inputs.adc[ch] else c }

/-- LOAD's six sub-steps, in order (R130). -/
def State.loadTick (s : State) : State :=
  s.beginTick.clearOneTick.countdowns.condition.drainMidi.clockStep

/-- `LOAD`, legal only in `PH_IDLE` (R130). -/
def execLoad (s : State) : Result :=
  match s.phase with
  | .idle => .next (s.loadTick.respond 0)
  | .process => .next (s.raise .badOrder (encode .load))

/-- S1: each physical output is driven with the frame's value (R143). -/
def State.driveDacs (s : State) : State :=
  { s with dac := s.dac.mapFinIdx fun ch d h =>
      if ch < s.cfg.ndac then
        { code := (s.outs[ch]'(Nat.lt_trans h (by decide))).out, octave := s.cfg.dacOctave }
      else d }

/-- S2: the outbound note path, if it is enabled (R144). -/
def State.outboundPath (s : State) : State := if s.midi.autoOut then s.notePath else s

/-- S3: the outbound list is driven and emptied (R141). -/
def State.driveMidi (s : State) : State :=
  { s with midiOut := s.midi.tx, midi := { s.midi with tx := [] } }

/-- S4: the outputs become the previous outputs and the tick ends (R142). -/
def State.endTick (s : State) : State :=
  { s.forOutputs (fun c => { c with prevOut := c.out }) with phase := .idle }

/-- SEND's four sub-steps, in order (R140). -/
def State.sendTick (s : State) : State := s.driveDacs.outboundPath.driveMidi.endTick

/-- `SEND`, legal only in `PH_PROCESS` (R140). -/
def execSend (s : State) : Result := inProcess .send s (s.sendTick.respond 0)

end Sys2Proof.Machine
end

