-- ==== Sys2Proof/Machine/Dispatch.lean ====
section
/-! DEFINITION. Every command to its meaning, one arm each. -/

namespace Sys2Proof.Machine

def exec (i : Instr) (s : State) : Host.Outcome State Fault Refusal :=
  match i with
  | .load => Sys2Proof.Machine.execLoad s
  | .send => Sys2Proof.Machine.execSend s
  | .mNoteoff mch d1 d2 => Sys2Proof.Machine.execMNoteoff mch d1 d2 s
  | .mNoteon mch d1 d2 => Sys2Proof.Machine.execMNoteon mch d1 d2 s
  | .mAtpoly mch d1 d2 => Sys2Proof.Machine.execMAtpoly mch d1 d2 s
  | .mCc mch d1 d2 => Sys2Proof.Machine.execMCc mch d1 d2 s
  | .mAtchan mch d1 d2 => Sys2Proof.Machine.execMAtchan mch d1 d2 s
  | .mPbend mch d1 d2 => Sys2Proof.Machine.execMPbend mch d1 d2 s
  | .mClock d1 d2 => Sys2Proof.Machine.execMClock d1 d2 s
  | .mStart d1 d2 => Sys2Proof.Machine.execMStart d1 d2 s
  | .mCont d1 d2 => Sys2Proof.Machine.execMCont d1 d2 s
  | .mStop d1 d2 => Sys2Proof.Machine.execMStop d1 d2 s
  | .mReset d1 d2 => Sys2Proof.Machine.execMReset d1 d2 s
  | .mOther status d1 d2 => Sys2Proof.Machine.execMOther status d1 d2 s
  | .readIn idx => Sys2Proof.Machine.execReadIn idx s
  | .gate idx => Sys2Proof.Machine.execGate idx s
  | .clock idx => Sys2Proof.Machine.execClock idx s
  | .tsc idx => Sys2Proof.Machine.execTsc idx s
  | .changed idx => Sys2Proof.Machine.execChanged idx s
  | .lastcv idx => Sys2Proof.Machine.execLastcv idx s
  | .islag idx => Sys2Proof.Machine.execIslag idx s
  | .loop idx => Sys2Proof.Machine.execLoop idx s
  | .outq idx => Sys2Proof.Machine.execOutq idx s
  | .out idx imm => Sys2Proof.Machine.execOut idx imm s
  | .clkout idx imm => Sys2Proof.Machine.execClkout idx imm s
  | .startlag idx => Sys2Proof.Machine.execStartlag idx s
  | .nlast idx => Sys2Proof.Machine.execNlast idx s
  | .nmin idx => Sys2Proof.Machine.execNmin idx s
  | .nmax idx => Sys2Proof.Machine.execNmax idx s
  | .nfirst idx => Sys2Proof.Machine.execNfirst idx s
  | .susq idx => Sys2Proof.Machine.execSusq idx s
  | .nsize idx => Sys2Proof.Machine.execNsize idx s
  | .mout idx => Sys2Proof.Machine.execMout idx s
  | .mtrig idx => Sys2Proof.Machine.execMtrig idx s
  | .logr idx => Sys2Proof.Machine.execLogr idx s
  | .playstop => Sys2Proof.Machine.execPlaystop s
  | .tap => Sys2Proof.Machine.execTap s
  | .tock idx => Sys2Proof.Machine.execTock idx s
  | .cfgw addr val => Sys2Proof.Machine.execCfgw addr val s
  | .cfgr addr => Sys2Proof.Machine.execCfgr addr s

end Sys2Proof.Machine
end

