-- ==== Sys2Proof/Machine/Fetch.lean ====
section
/-! DEFINITION. What the host presents next, and what the block does with it before a command
runs: reset, the faulted state, illegal words. -/

namespace Sys2Proof.Machine

/-- What a step finds on the ports. -/
inductive Fetched where
  /-- Nothing is presented, or what was presented is dealt with: the state after the step. -/
  | done (s : State)
  /-- A legal command word: the command, and the state in which it runs. -/
  | run (i : Instr) (s : State)
  /-- Something is presented under parameters a model refuses. -/
  | refuse (r : Refusal)
  deriving DecidableEq, Repr

/-- A command arriving while faulted is not decoded: it changes nothing and answers all ones
(60_exceptions.md R321, R330). -/
def State.ignoreCommand (s : State) : State := s.respond allOnes

/-- A word on the CMD port: the faulted state first (R330), then decoding (R323). -/
def State.present (s : State) (w : Word) : Fetched :=
  if s.faulted then .done s.ignoreCommand
  else
    match decode w with
    | .ok i => .run i s
    | .error _ => .done (s.raise .illegalCommand w)

/-- What one host event does. Asserting RESET makes the block ignore CMD; releasing it gives every
element its reset value; a command has its input-port values, or is ignored
(70_reset_and_hazards.md R350, log 3). -/
def State.receive (s : State) : HostEvent → Fetched
  | .assertReset => .done { s with resetAsserted := true }
  | .releaseReset => .done (if s.resetAsserted then s.afterReset else s)
  | .command w inputs =>
    if s.resetAsserted then .done s else ({ s with inputs := inputs }).present w

/-- The next host event (log 1). With none left the block is idle and holds all state (R341).
The parameter sets 93_implementation_defined.md U13 tells a model to refuse are refused. -/
def State.fetch (s : State) : Fetched :=
  match s.pending with
  | [] => .done s
  | e :: rest =>
    if s.cfg.accepted then ({ s with pending := rest }).receive e else .refuse .illegalConfiguration

/-- The state in which the host presents a word ahead of everything else, the other input ports
driven as they are. -/
def State.presenting (s : State) (w : Word) : State :=
  { s with pending := .command w s.inputs :: s.pending }

end Sys2Proof.Machine
end

