-- ==== Sys2Proof/Machine/Step.lean ====
section
/-! DEFINITION. One step: the next host event, and the command it presents. -/

namespace Sys2Proof.Machine

/-- One step (10_state.md R20): refused only for the parameters of
93_implementation_defined.md U13. -/
def step (s : State) : Host.Outcome State Fault Refusal :=
  match s.fetch with
  | .done t => .next t
  | .run i t => exec i t
  | .refuse r => .refused r

/-- `s` with the command word whose low `nbits` bits are those of `w` (the rest 0) presented next:
the block fetches nothing, a command is what the host puts on the CMD port (log 1). -/
def State.withFetchWord (s : State) (nbits w : Nat) : State :=
  s.presenting (BitVec.ofNat 32 (w % 2 ^ nbits))

end Sys2Proof.Machine
end

