-- ==== Sys2Proof/Machine/Pseudo.lean ====
section
/-! DEFINITION. The assembler forms and the pseudo-instructions of the spec's listings
(30_encoding.md R113, R114), as functions to commands. -/

namespace Sys2Proof.Machine

/-- `CFGW reg, val` with a register's name (R113). -/
def asmCfgw (r : Reg) (val : BitVec 16) : Instr := .cfgw r.addr val

/-- `CFGR reg` with a register's name (R113). -/
def asmCfgr (r : Reg) : Instr := .cfgr r.addr

/-- `M.ATCHAN mch, d1`: the assembler forms `d2 = 0` (R113). -/
def asmAtchan (mch : BitVec 4) (d1 : BitVec 7) : Instr := .mAtchan mch d1 0

/-- `M.PBEND mch, v14`: the assembler forms `d1 = v14 & 0x7F`, `d2 = v14 >> 7` (R113). -/
def asmPbend (mch : BitVec 4) (v14 : BitVec 14) : Instr :=
  .mPbend mch (v14.extractLsb' 0 7) (v14.extractLsb' 7 7)

/-- Realtime messages are written with no operand: `d1 = d2 = 0` (R113). -/
def asmClock : Instr := .mClock 0 0

/-- `M.START` (R113). -/
def asmStart : Instr := .mStart 0 0

/-- `M.CONT` (R113). -/
def asmCont : Instr := .mCont 0 0

/-- `M.STOP` (R113). -/
def asmStop : Instr := .mStop 0 0

/-- `M.RESET` (R113). -/
def asmReset : Instr := .mReset 0 0

/-- `TICK`, an empty tick (R114). -/
def pseudoTick : List Instr := [.load, .send]

/-- `TRIGOUT ch`, a default-length trigger (R114). -/
def pseudoTrigout (cfg : Config) (ch : BitVec 4) : List Instr :=
  [.clkout ch (fitNat 16 cfg.trigPulseTicks)]

/-- `GATEOUT ch, b`, a level (R114). -/
def pseudoGateout (cfg : Config) (ch : BitVec 4) (b : Bool) : List Instr :=
  [.out ch (if b then toCode cfg.gateHighCode else 0)]

/-- `SETMAP ch, mch, fn` (R114). -/
def pseudoSetmap (ch : BitVec 3) (mch : BitVec 4) (fn : MapFn) : List Instr :=
  [asmCfgw (.mapa ch) (0#3 ++ fn.bits ++ 0#4 ++ mch)]

/-- `SETCC ch, cc` fixes the controller number (R114). -/
def pseudoSetcc (ch : BitVec 3) (cc : BitVec 7) : List Instr := [asmCfgw (.mapb ch) (0#9 ++ cc)]

/-- `LEARNCC ch` re-arms learn (R114). -/
def pseudoLearncc (ch : BitVec 3) : List Instr := [asmCfgw (.mapb ch) 0x0080]

/-- `SETMULT ch, n` (R114). -/
def pseudoSetmult (ch : BitVec 3) (n : Int) : List Instr :=
  [asmCfgw (.mult ch) (0#8 ++ BitVec.ofInt 8 n)]

/-- `SETMO ch, mch, f` (R114). -/
def pseudoSetmo (ch : BitVec 3) (mch : BitVec 4) (f : MoFn) : List Instr :=
  [asmCfgw (.mo ch) (0#6 ++ f.bits ++ 0#4 ++ mch)]

/-- `SUSTAIN mch, v`, the pedal (R114). -/
def pseudoSustain (mch : BitVec 4) (v : BitVec 7) : List Instr := [.mCc mch 64 v]

end Sys2Proof.Machine
end

