-- ==== Sys2Proof/Safety.lean ====
section
/-! DEFINITION. What counts as a safe run, the invariant of the block, and the classes of commands
the spec's rules speak of, in the terms the statements use. -/

namespace Sys2Proof

/-- The phase a command is legal in; none where both are (30_encoding.md R108). -/
def Instr.legalPhase : Instr → Option Machine.Phase
  | .load => some .idle
  | .send | .playstop | .tap => some .process
  | .mNoteoff _ _ _ | .mNoteon _ _ _ | .mAtpoly _ _ _ | .mCc _ _ _ | .mAtchan _ _ _
  | .mPbend _ _ _ | .mClock _ _ | .mStart _ _ | .mCont _ _ | .mStop _ _ | .mReset _ _
  | .mOther _ _ _ => none
  | .readIn _ | .gate _ | .clock _ | .tsc _ | .changed _ | .lastcv _ | .islag _ | .loop _
  | .outq _ | .out _ _ | .clkout _ _ | .startlag _ => some .process
  | .nlast _ | .nmin _ | .nmax _ | .nfirst _ | .susq _ | .nsize _ | .mout _ | .mtrig _
  | .logr _ | .tock _ => some .process
  | .cfgw _ _ | .cfgr _ => none

/-- The index of a command is in the range the command names (60_exceptions.md R325). -/
def Instr.indexInRange (cfg : Config) : Instr → Bool
  | .readIn idx | .gate idx | .clock idx | .tsc idx | .changed idx | .lastcv idx | .islag idx
  | .startlag idx => decide (idx.toNat < cfg.nin)
  | .out idx _ | .clkout idx _ | .loop idx | .outq idx | .mout idx | .mtrig idx | .tock idx =>
    decide (idx.toNat < cfg.nout)
  | .logr idx => decide (idx.toNat < cfg.logDepth)
  | .nlast _ | .nmin _ | .nmax _ | .nfirst _ | .susq _ | .nsize _ => true
  | .load | .send | .playstop | .tap | .cfgw _ _ | .cfgr _ => true
  | .mNoteoff _ _ _ | .mNoteon _ _ _ | .mAtpoly _ _ _ | .mCc _ _ _ | .mAtchan _ _ _
  | .mPbend _ _ _ | .mClock _ _ | .mStart _ _ | .mCont _ _ | .mStop _ _ | .mReset _ _
  | .mOther _ _ _ => true

/-- The query commands (20_memory.md R85). -/
def Instr.isQuery : Instr → Bool
  | .readIn _ | .gate _ | .clock _ | .tsc _ | .changed _ | .lastcv _ | .islag _ | .loop _
  | .outq _ => true
  | .nlast _ | .nmin _ | .nmax _ | .nfirst _ | .nsize _ | .susq _ | .mout _ | .mtrig _ | .logr _
  | .tock _ | .cfgr _ => true
  | .load | .send | .playstop | .tap | .out _ _ | .clkout _ _ | .startlag _ | .cfgw _ _ => false
  | .mNoteoff _ _ _ | .mNoteon _ _ _ | .mAtpoly _ _ _ | .mCc _ _ _ | .mAtchan _ _ _
  | .mPbend _ _ _ | .mClock _ _ | .mStart _ _ | .mCont _ _ | .mStop _ _ | .mReset _ _
  | .mOther _ _ _ => false

end Sys2Proof

namespace Sys2Proof.Machine

/-- The outcome of a command that takes a fault: code and word latched, all ones answered, all else
as it was (60_exceptions.md R321). -/
def faultOutcome (i : Instr) (s : State) (code : FaultCode) : Result :=
  .next { s with fault := { code := code, word := encode i }, resp := allOnes }

/-- The word `op << 24 | idx << 20` (30_encoding.md R101). -/
def indexWord (op : Nat) (idx : BitVec 4) : Word := BitVec.ofNat 32 (op * 2 ^ 24 + idx.toNat * 2 ^ 20)

/-- The word `0x10 << 24 | status << 16 | d1 << 8 | d2` of an inbound message (R101, R102). -/
def midiWord (status : Nat) (d1 d2 : BitVec 7) : Word :=
  BitVec.ofNat 32 (0x10 * 2 ^ 24 + status * 2 ^ 16 + d1.toNat * 2 ^ 8 + d2.toNat)

/-- The activity log after the entry `{typ, d1, d2}` (42_midi_in.md R195). -/
def State.logWith (s : State) (typ : BitVec 8) (d1 d2 : BitVec 7) : List LogEntry :=
  (if s.midi.log.length = s.cfg.logDepth then s.midi.log.drop 1 else s.midi.log)
    ++ [{ msg := typ, d1 := d1, d2 := d2 }]

/-- An `n`-bit element to which a rule writes the number `v` holds it, if it fits (00_scope.md R8);
under parameters with which it does not, nothing is said of what it holds (log 5). -/
def holdsNat {n : Nat} (x : BitVec n) (v : Nat) : Prop := v < 2 ^ n → x = BitVec.ofNat n v

/-- A 16-bit signed code to which a rule writes the integer `v` holds it, if it fits (R8, R9). -/
def holdsCode (x : Code) (v : Int) : Prop := -32768 ≤ v → v ≤ 32767 → x = BitVec.ofInt 16 v

/-- The numbers of the map functions (10_state.md R43). -/
def mapFnNumbers : List (Nat × MapFn) :=
  [(0, .off), (1, .noteLast), (2, .notePoly2), (3, .notePoly3), (4, .notePoly4), (5, .noteMin),
    (6, .noteMax), (7, .notePedal), (8, .noteInv), (9, .velocity), (10, .gate), (11, .trigAlways),
    (12, .trigFirst), (13, .cc), (14, .aftertouch), (15, .pitchbend), (16, .clock), (17, .start)]

/-- The numbers of the outbound roles (10_state.md R52). -/
def moFnNumbers : List (Nat × MoFn) := [(0, .off), (1, .note), (2, .gate)]

/-- The Clock message the engine emits (44_clock_engine.md R279). -/
def clockMsg : OutMsg := { status := 0xF8, d1 := 0, d2 := 0 }

/-- The selected sync input, if there is one, is not clocked in this tick (44_clock_engine.md R270). -/
def State.noPulse (s : State) : Prop :=
  s.clk.syncSrc.toNat < s.cfg.nin → ∀ c, s.ins[s.clk.syncSrc.toNat]? = some c → c.clocked = false

/-- The Note-Offs a LOAD emits for the countdowns that expire in it, ascending
(40_tick_phases.md R134). -/
def releaseOffs (s : State) : List OutMsg :=
  (s.outs.toList.take s.cfg.nout).flatMap fun c =>
    if c.noteoffCd = 1 ∧ c.sndValid = true then
      [{ status := 0x80#8 ||| c.sndChan.setWidth 8, d1 := c.sndNote.setWidth 8, d2 := 0 }]
    else []

/-- What the rule of a query of an input lane says: its word, the two faults in their order, and the
answer, with no other change. -/
def InputQuery (op : Nat) (mk : BitVec 4 → Instr) (answer : InChannel → Word) : Prop :=
  ∀ (idx : BitVec 4) (s : State),
    encode (mk idx) = indexWord op idx
    ∧ (s.phase = .idle → exec (mk idx) s = faultOutcome (mk idx) s .badOrder)
    ∧ (s.phase = .process → s.cfg.nin ≤ idx.toNat →
        exec (mk idx) s = faultOutcome (mk idx) s .badChannel)
    ∧ ∀ h : idx.toNat < ninMax, s.phase = .process → idx.toNat < s.cfg.nin →
        exec (mk idx) s = .next { s with resp := answer s.ins[idx.toNat] }

/-- What the rule of a query of an output lane says. -/
def OutputQuery (op : Nat) (mk : BitVec 4 → Instr) (answer : OutChannel → Word) : Prop :=
  ∀ (idx : BitVec 4) (s : State),
    encode (mk idx) = indexWord op idx
    ∧ (s.phase = .idle → exec (mk idx) s = faultOutcome (mk idx) s .badOrder)
    ∧ (s.phase = .process → s.cfg.nout ≤ idx.toNat →
        exec (mk idx) s = faultOutcome (mk idx) s .badChannel)
    ∧ ∀ h : idx.toNat < noutMax, s.phase = .process → idx.toNat < s.cfg.nout →
        exec (mk idx) s = .next { s with resp := answer s.outs[idx.toNat] }

/-- What the rule of a query of a MIDI channel says of its word, its phase and its effect; the
answer is a relation between the state and the response. -/
def ChannelQuery (op : Nat) (mk : BitVec 4 → Instr) (answer : BitVec 4 → State → Word → Prop) :
    Prop :=
  ∀ (idx : BitVec 4) (s : State),
    encode (mk idx) = indexWord op idx
    ∧ (s.phase = .idle → exec (mk idx) s = faultOutcome (mk idx) s .badOrder)
    ∧ (s.phase = .process →
        ∃ w, exec (mk idx) s = .next { s with resp := w } ∧ answer idx s w)

/-- The entry word `(velocity << 8) | note`, as a number (43_midi_query_out.md R239). -/
def entryValue (e : NoteEntry) : Word := BitVec.ofNat 32 (e.velocity.toNat * 2 ^ 8 + e.note.toNat)

/-- The notes of a stack are all different (10_state.md R38). -/
def distinctNotes (st : List NoteEntry) : Prop := (st.map NoteEntry.note).Nodup

/-- `st` with the entry of note `n` gone, said by what it holds (42_midi_in.md R193). -/
def withoutNote (st : List NoteEntry) (n : BitVec 7) : List NoteEntry :=
  st.filter fun e => e.note != n

/-- A tempo pair: set from a BPM value, or measured (10_state.md R66). -/
def tempoAgrees (cfg : Config) (bpm beat : Nat) : Prop :=
  beat = cfg.ticksPerMin / bpm
  ∨ bpm = max cfg.bpmMin (min (cfg.ticksPerMin / beat) cfg.bpmMax)

/-- The invariant of the block between commands. Each field names the rule it comes from. -/
structure State.Wf (s : State) : Prop where
  /-- The parameters are legal (log 5). -/
  legal : s.cfg.legal = true
  /-- No duplicate note numbers within one stack (R38, 42_midi_in.md R214). -/
  noDuplicates : ∀ mc : Fin nmidiMax, distinctNotes s.midi.stack[mc]
  /-- The log never exceeds its depth (R50). -/
  logBound : s.midi.log.length ≤ s.cfg.logDepth
  /-- The inbound queue never exceeds its depth (R56). -/
  rxBound : s.midi.rx.length ≤ s.cfg.rxqDepth
  /-- `lag_cd` stays in `0..ADC_LAG_TICKS` (R26). -/
  lagBound : ∀ ch : Fin ninMax, s.ins[ch].lagCd.toNat ≤ s.cfg.adcLagTicks
  /-- `db_cnt` stays in `0..DEBOUNCE_TICKS-1` (R27). -/
  debounceBound : ∀ ch : Fin ninMax, s.ins[ch].dbCnt.toNat < s.cfg.debounceTicks
  /-- `clk_div` is 1..255 (R44). -/
  clkDivLegal : s.midi.clkDiv ≠ 0
  /-- `clk_skip` is 0..100 (R64). -/
  clkSkipLegal : s.clkSkip.toNat ≤ 100
  /-- `bpm` is in `BPM_MIN..BPM_MAX` (R66). -/
  bpmLegal : s.cfg.bpmMin ≤ s.clk.bpm.toNat ∧ s.clk.bpm.toNat ≤ s.cfg.bpmMax
  /-- `beat_ticks` is in `BT_MIN..BT_MAX` (R66). -/
  beatLegal : s.cfg.btMin ≤ s.clk.beatTicks.toNat ∧ s.clk.beatTicks.toNat ≤ s.cfg.btMax
  /-- The two halves of the tempo agree (R66). -/
  tempo : tempoAgrees s.cfg s.clk.bpm.toNat s.clk.beatTicks.toNat
  /-- `shuffle` is in `0..SHUFFLE_MAX` (R68). -/
  shuffleLegal : s.clk.shuffle.toNat ≤ s.cfg.shuffleMax
  /-- `sync_ppqn` is 1..24 (R72). -/
  syncPpqnLegal : 1 ≤ s.clk.syncPpqn.toNat ∧ s.clk.syncPpqn.toNat ≤ 24
  /-- `sync_src` is an input channel, or 7 for none (R72). -/
  syncSrcLegal : s.clk.syncSrc.toNat < s.cfg.nin ∨ s.clk.syncSrc.toNat = 7
  /-- `tap_buf` holds `TAP_N` intervals, and fewer than that many are of the gesture (R73). -/
  tapBounds : s.clk.tapBuf.length = s.cfg.tapN ∧ s.clk.tapN < s.cfg.tapN
  /-- No sync lock outside RUNNING (44_clock_engine.md R268). -/
  noLock : s.clk.state ≠ .running → s.clk.syncSeen = false
  /-- No shuffled pulse is pending outside RUNNING (R268). -/
  noPending : s.clk.state ≠ .running → ∀ ch : Fin noutMax, s.outs[ch].shufCd = 0
  /-- A release countdown runs only under a sounding note (43_midi_query_out.md R245). -/
  release : ∀ ch : Fin noutMax, s.outs[ch].noteoffCd ≠ 0 → s.outs[ch].sndValid = true
  /-- `midi_tx` holds at most a Note-Off per output and one Clock (R58), -/
  txBound : s.midi.tx.length ≤ s.cfg.nout + 1
  /-- and is empty between ticks (40_tick_phases.md R141). -/
  txIdle : s.phase = .idle → s.midi.tx = []
  /-- Output lanes that do not exist hold their reset values (R22, log 11), -/
  deadLanes : ∀ ch : Fin noutMax, s.cfg.nout ≤ ch.val → s.outs[ch] = .reset
  /-- and so do input lanes that do not exist. -/
  deadIns : ∀ ch : Fin ninMax, s.cfg.nin ≤ ch.val → s.ins[ch] = .reset

/-- `t` comes from `s` in any number of steps. -/
inductive Reaches (s : State) : State → Prop where
  | start : Reaches s s
  | step {t u : State} (h : Reaches s t) (hu : step t = .next u) : Reaches s u

/-- A safe run: what the host presents never makes the block fault (60_exceptions.md R321: a model
"may prove of a host program that it never faults"). -/
def SafeRun (s : State) : Prop := ∀ t, Reaches s t → t.fault.code = .none

/-- One tick in which the host presents nothing between LOAD and SEND (pseudo-instruction TICK,
30_encoding.md R114), with these values on the input ports. -/
def emptyTick (s : State) (inputs : Inputs) : State :=
  match exec .load { s with inputs := inputs } with
  | .next t =>
    match exec .send t with
    | .next u => u
    | _ => t
  | _ => s

/-- Empty ticks, one after another. -/
def emptyTicks (s : State) (inputs : List Inputs) : State := inputs.foldl emptyTick s

/-- The state after `n` Clock messages have been dispatched (42_midi_in.md R196). -/
def afterClocks (s : State) : Nat → State
  | 0 => s
  | n + 1 => (afterClocks s n).processMidi { status := 0xF8, d1 := 0, d2 := 0 }

/-- The engine after `n` free-running steps (44_clock_engine.md R278). -/
def afterAdvances (k : ClockState) : Nat → ClockState
  | 0 => k
  | n + 1 => (afterAdvances k n).advance

/-- The state after `n` clock steps, nothing else happening between them (44_clock_engine.md R270). -/
def afterClockSteps (s : State) : Nat → State
  | 0 => s
  | n + 1 => (afterClockSteps s n).clockStep

end Sys2Proof.Machine
end

