-- ==== Sys2Proof/Certificates/Slice0/Obligations.lean ====
section
/-! DEFINITION. The statements for the provers. Each docstring names the rules of spec/ it
formalises; OBLIGATIONS.json lists them. -/

open Sys2Proof Sys2Proof.Machine

/-! ### Encoding -/

/-- Decoding the word of a well-formed command gives the command back, whatever its operands
(30_encoding.md R101, R107). -/
def Obligations.DecodeInvertsEncode : Prop :=
  ∀ i : Instr, i.wellFormed = true → decode (encode i) = .ok i

/-- A word that decodes is the word of the command it decodes to, so no bit of a legal word is
dropped, and that command is well formed (R101, R110). -/
def Obligations.DecodedWordIsItsEncoding : Prop :=
  ∀ (w : Word) (i : Instr), decode w = .ok i → encode i = w ∧ i.wellFormed = true

/-- The decoder takes the first row of the opcode map whose masked bits match (R107). -/
def Obligations.DecoderFollowsOpcodeMap : Prop :=
  ∀ w : Word, (decode w).toOption = decodeByMap w

/-- Words written out from R101 to R106 decode to the commands they stand for. -/
def Obligations.SpecWordsDecode : Prop :=
  decode 0x01000000#32 = .ok .load
  ∧ decode 0x10923C40#32 = .ok (.mNoteon 2 60 64)
  ∧ decode 0x10FC0000#32 = .ok (.mStop 0 0)
  ∧ decode 0x10C00500#32 = .ok (.mOther 0xC0 5 0)
  ∧ decode 0x21400000#32 = .ok (.gate 4)
  ∧ decode 0x3030FFFF#32 = .ok (.out 3 0xFFFF)
  ∧ decode 0x60120A03#32 = .ok (.cfgw 0x12 0x0A03)
  ∧ decode 0x61030001#32 = .error .reservedBits
  ∧ decode 0x29000000#32 = .error .unknownOpcode

/-! ### The step -/

/-- A step runs the decoded command: the host event is consumed, its input-port values are on the
ports, and the command runs in that state (10_state.md R20; the list of events is log 1). -/
def Obligations.StepRunsDecodedCommand : Prop :=
  ∀ (s : State) (w : Word) (inputs : Inputs) (rest : List HostEvent) (i : Instr),
    s.cfg.accepted = true → s.resetAsserted = false → s.fault.code = .none →
    s.pending = .command w inputs :: rest → decode w = .ok i →
    step s = exec i { s with pending := rest, inputs := inputs }

/-- A word that matches no row raises `IllegalCommand`, in every phase and before any other check;
format M words with bit 15 or bit 7 set match no row (60_exceptions.md R323). What the host presents
is the model's event list, log 1. -/
def Obligations.UnmatchedWordRaisesIllegalCommand : Prop :=
  (∀ (s : State) (w : Word) (inputs : Inputs) (rest : List HostEvent),
    s.cfg.accepted = true → s.resetAsserted = false → s.fault.code = .none →
    s.pending = .command w inputs :: rest → decodeByMap w = none →
    step s = .next { s with pending := rest, inputs := inputs,
                            fault := { code := .illegalCommand, word := w }, resp := allOnes })
  ∧ (∀ w : Word, opByte w = 0x10#8 → w.getLsbD 15 = true ∨ w.getLsbD 7 = true →
      decodeByMap w = none)
  ∧ decodeByMap 0x00000000#32 = none ∧ decodeByMap 0x01000001#32 = none

/-- While faulted a command is not decoded: nothing changes but the answer (60_exceptions.md R330).
While the RESET port is asserted a command is ignored, faulted or not; when it is released every
element has its reset value (70_reset_and_hazards.md R350). That what the host presents waits in a
list and outlives RESET, that asserting and releasing are events of it, and that the elements keep
their values until the release, is the model's choice (log 1, log 3). -/
def Obligations.FaultedBlockWaitsForReset : Prop :=
  ∀ (s : State) (rest : List HostEvent), s.cfg.accepted = true →
    (∀ (w : Word) (inputs : Inputs), s.resetAsserted = false → s.fault.code ≠ .none →
      s.pending = .command w inputs :: rest →
      step s = .next { s with pending := rest, inputs := inputs, resp := allOnes })
    ∧ (s.pending = .assertReset :: rest →
      step s = .next { s with pending := rest, resetAsserted := true })
    ∧ (∀ (w : Word) (inputs : Inputs), s.resetAsserted = true →
      s.pending = .command w inputs :: rest → step s = .next { s with pending := rest })
    ∧ (s.resetAsserted = true → s.pending = .releaseReset :: rest →
      step s = .next { State.resetWith s.cfg with pending := rest, inputs := s.inputs })

/-- The reset value of every state element, and what the registers read after reset (R351). -/
def Obligations.ResetValues : Prop :=
  let s := State.reset
  (∀ ch : Fin ninMax, s.ins[ch] =
    { inCv := 0, lastCv := 0, tsc := 0, lagCd := 0, dbCnt := 0, gateHigh := false,
      clocked := false, changedCv := false })
  ∧ (∀ ch : Fin noutMax, s.outs[ch] =
    { out := 0, prevOut := 0, clockCd := 0, loop := false, mapMch := 0, mapFn := .off, mapCc := 0,
      ccUnset := true, mOut := 0, mTrig := false, moFn := .off, moChan := 0, noteoffCd := 0,
      sndValid := false, sndNote := 0, sndChan := 0, mult := 0, pulsePar := false, shufCd := 0,
      tock := false })
  ∧ s.phase = .idle ∧ s.tickCount = 0
  ∧ (∀ mc : Fin nmidiMax, s.midi.stack[mc] = [])
  ∧ s.midi.semitoneMask = 0 ∧ s.midi.sustain = 0 ∧ s.midi.clkDiv = 1 ∧ s.midi.ppqnCnt = 0
  ∧ s.midi.running = false ∧ s.midi.clkTick = false ∧ s.midi.log = []
  ∧ s.midi.autoOut = false ∧ s.midi.moHold = 0 ∧ s.midi.rx = [] ∧ s.midi.tx = []
  ∧ s.midi.rxqOvf = false ∧ s.rngDraws = 0 ∧ s.fault = { code := .none, word := 0 }
  ∧ s.clkSkip = 0 ∧ s.clk.state = .stopped ∧ s.clk.bpm = 120 ∧ s.clk.beatTicks = 8333
  ∧ s.clk.shuffle = 0 ∧ s.clk.emitClk = true ∧ s.clk.beatPos = 0 ∧ s.clk.beatCount = 0
  ∧ s.clk.sinceSync = 0 ∧ s.clk.syncSeen = false ∧ s.clk.syncCnt = 0 ∧ s.clk.syncPpqn = 4
  ∧ s.clk.syncSrc = 7 ∧ s.clk.tapBuf = [0, 0, 0] ∧ s.clk.tapN = 0
  ∧ s.clk.lastTap = 0 ∧ s.clk.lastTapValid = false
  ∧ s.resetAsserted = false ∧ s.resp = 0 ∧ (∀ ch : Fin ndacMax, s.dac[ch] = { code := 0, octave := s.cfg.dacOctave })
  ∧ s.midiOut = []
  ∧ ∀ (addr : BitVec 8) (r : Reg), regAt s.cfg.nout addr = some r →
      readReg r s = if addr = 0x01#8 then 1 else if addr = 0x03#8 then 120
        else if addr = 0x05#8 then 4 else if addr = 0x06#8 then 7
        else if 0x18#8 ≤ addr ∧ addr < 0x1C#8 then 0x0080
        else if addr = 0x80#8 then 0x0010 else if addr = 0x86#8 then 8333 else 0

/-- A parameter set outside the ranges of 93_implementation_defined.md U13 is refused as soon as the
host presents something, and no other is. When the refusal comes is the model's choice (log 5). -/
def Obligations.IllegalParametersAreRefused : Prop :=
  ∀ s : State, s.pending ≠ [] →
    (step s = .refused .illegalConfiguration ↔
      s.cfg.nout < 4 ∨ 8 < s.cfg.nout ∨ s.cfg.debounceTicks < 1 ∨ s.cfg.rxqDepth < 1
        ∨ 255 < s.cfg.rxqDepth ∨ 1 < s.cfg.multPosOffset)

/-- Under the parameters U13 accepts every presented event is followed by a next state, and every
command has one in every state (70_reset_and_hazards.md R365, 93_implementation_defined.md U22: "every
presented command completes"). That a step with nothing presented is a next state is the model's choice
(log 1), and so is that a fault is one, where R321 also lets the trace end (log 8). -/
def Obligations.EveryPresentedCommandCompletes : Prop :=
  (∀ s : State, s.cfg.accepted = true → ∃ t, step s = .next t)
  ∧ ∀ (i : Instr) (s : State), ∃ t, exec i s = .next t

/-! ### Faults -/

/-- A command presented in a phase in which it is not legal raises `BadOrder`, whatever its
operands (60_exceptions.md R324). -/
def Obligations.WrongPhaseRaisesBadOrder : Prop :=
  ∀ (i : Instr) (s : State) (p : Phase), i.legalPhase = some p → s.phase ≠ p →
    exec i s = faultOutcome i s .badOrder

/-- In its phase a command with an index outside its range raises `BadChannel`; the note queries
accept all 16 values (R325). -/
def Obligations.OutOfRangeIndexRaisesBadChannel : Prop :=
  (∀ (i : Instr) (s : State), s.phase = .process → i.indexInRange s.cfg = false →
    exec i s = faultOutcome i s .badChannel)
  ∧ ∀ (idx : BitVec 4) (s : State), s.phase = .process →
      ∀ i ∈ [Instr.nlast idx, .nmin idx, .nmax idx, .nfirst idx, .susq idx, .nsize idx],
        ∃ w, exec i s = .next { s with resp := w }

/-- An unimplemented address, and a write to a status register, raise `BadRegister`
(45_config.md R302). -/
def Obligations.UnimplementedRegisterRaisesBadRegister : Prop :=
  ∀ (addr : BitVec 8) (val : BitVec 16) (s : State), s.cfg.legal = true →
    let a := addr.toNat
    let n := s.cfg.nout
    let config := a ≤ 0x07 ∨ (0x10 ≤ a ∧ a < 0x10 + n) ∨ (0x18 ≤ a ∧ a < 0x18 + n)
      ∨ (0x20 ≤ a ∧ a < 0x20 + n) ∨ (0x28 ≤ a ∧ a < 0x28 + n)
    (¬ config → exec (.cfgw addr val) s = faultOutcome (.cfgw addr val) s .badRegister)
    ∧ (¬ config → ¬ (0x80 ≤ a ∧ a ≤ 0x89) →
        exec (.cfgr addr) s = faultOutcome (.cfgr addr) s .badRegister)

/-- The complete test of a written value, register by register (45_config.md R303): a value of the
table, with no bit outside the register's fields (10_state.md R62), completes; any other value faults and
stores nothing. -/
def Obligations.IllegalValueRaisesBadValue : Prop :=
  ∀ (val : BitVec 16) (s : State),
    let v := val.toNat
    let test (addr : BitVec 8) (legal : Prop) : Prop :=
      (legal → ∃ t, exec (.cfgw addr val) s = .next t ∧ t.fault = s.fault ∧ t.resp = 0)
      ∧ (¬ legal → exec (.cfgw addr val) s = faultOutcome (.cfgw addr val) s .badValue)
    test 0x00 (v ≤ 1) ∧ test 0x01 (1 ≤ v ∧ v ≤ 255) ∧ test 0x02 (v ≤ 100)
    ∧ test 0x03 (s.cfg.bpmMin ≤ v ∧ v ≤ s.cfg.bpmMax ∧ v ≤ 511)
    ∧ test 0x04 (v ≤ s.cfg.shuffleMax ∧ v ≤ 127) ∧ test 0x05 (1 ≤ v ∧ v ≤ 24)
    ∧ test 0x06 ((v < s.cfg.nin ∧ v ≤ 7) ∨ v = 7) ∧ test 0x07 True
    ∧ ∀ ch : BitVec 3, ch.toNat < s.cfg.nout →
        test (0x10 + ch.setWidth 8) (val &&& ~~~0x1F0F#16 = 0 ∧ v / 256 % 32 ≤ 17)
        ∧ test (0x18 + ch.setWidth 8) (v ≤ 0x00FF) ∧ test (0x20 + ch.setWidth 8) (v ≤ 0x00FF)
        ∧ test (0x28 + ch.setWidth 8) (val &&& ~~~0x030F#16 = 0 ∧ v / 256 % 4 ≤ 2)

/-- A command that raises a fault has done nothing else: the latch and the response are all that
differs, and the word latched is the command's (60_exceptions.md R321, R329). -/
def Obligations.FaultsArePrecise : Prop :=
  ∀ (i : Instr) (s t : State), exec i s = .next t → t.fault ≠ s.fault →
    t = { s with fault := t.fault, resp := allOnes } ∧ t.fault.code ≠ .none
      ∧ t.fault.word = encode i

/-- A command in its phase, with an index in range and, for register access, an implemented address
and a legal value, raises no fault (60_exceptions.md R320: these are all the causes). -/
def Obligations.LegalCommandNeverFaults : Prop :=
  ∀ (i : Instr) (s : State), s.cfg.legal = true →
    (∀ p, i.legalPhase = some p → s.phase = p) → i.indexInRange s.cfg = true →
    (∀ addr val, i = .cfgw addr val →
      ∃ r, regAt s.cfg.nout addr = some r ∧ r.writable = true ∧ legalValue s.cfg r val = true) →
    (∀ addr, i = .cfgr addr → regAt s.cfg.nout addr ≠ none) →
    ∃ t, exec i s = .next t ∧ t.fault = s.fault

/-! ### Queries -/

/-- The seven queries of an input lane (41_frame_io.md R160 to R165, R177). -/
def Obligations.InputQueriesAnswer : Prop :=
  InputQuery 0x20 .readIn (fun c => c.inCv.signExtend 32)
  ∧ InputQuery 0x21 .gate (fun c => if c.gateHigh then 1 else 0)
  ∧ InputQuery 0x22 .clock (fun c => if c.clocked then 1 else 0)
  ∧ InputQuery 0x23 .tsc (fun c => c.tsc)
  ∧ InputQuery 0x24 .changed (fun c => if c.changedCv then 1 else 0)
  ∧ InputQuery 0x25 .lastcv (fun c => c.lastCv.signExtend 32)
  ∧ InputQuery 0x26 .islag (fun c => if c.lagCd = 0 then 1 else 0)

/-- The five queries of an output lane (41_frame_io.md R173, R174; 43_midi_query_out.md R236, R237;
44_clock_engine.md R275). -/
def Obligations.OutputQueriesAnswer : Prop :=
  OutputQuery 0x27 .loop (fun c => if c.loop then 1 else 0)
  ∧ OutputQuery 0x28 .outq (fun c => c.out.signExtend 32)
  ∧ OutputQuery 0x46 .mout (fun c => c.mOut.signExtend 32)
  ∧ OutputQuery 0x47 .mtrig (fun c => if c.mTrig then 1 else 0)
  ∧ OutputQuery 0x52 .tock (fun c => if c.tock then 1 else 0)

/-- The six queries of a MIDI channel. Note queries (43_midi_query_out.md R230 to R233, R239): all
ones of an empty stack; the entry word of the last, the first, and, where the notes are distinct
(10_state.md R38), the lowest and the highest entry. `SUSQ` answers the channel's latch (R234),
`NSIZE` the number of held notes (R235). -/
def Obligations.ChannelQueriesAnswer : Prop :=
  ChannelQuery 0x40 .nlast (fun idx s w =>
    (s.midi.stackOf idx = [] → w = allOnes)
    ∧ ∀ st e, s.midi.stackOf idx = st ++ [e] → w = entryValue e)
  ∧ ChannelQuery 0x43 .nfirst (fun idx s w =>
    (s.midi.stackOf idx = [] → w = allOnes)
    ∧ ∀ st e, s.midi.stackOf idx = e :: st → w = entryValue e)
  ∧ ChannelQuery 0x41 .nmin (fun idx s w =>
    (s.midi.stackOf idx = [] → w = allOnes)
    ∧ ∀ e ∈ s.midi.stackOf idx, distinctNotes (s.midi.stackOf idx) →
        (∀ e' ∈ s.midi.stackOf idx, e.note ≤ e'.note) → w = entryValue e)
  ∧ ChannelQuery 0x42 .nmax (fun idx s w =>
    (s.midi.stackOf idx = [] → w = allOnes)
    ∧ ∀ e ∈ s.midi.stackOf idx, distinctNotes (s.midi.stackOf idx) →
        (∀ e' ∈ s.midi.stackOf idx, e'.note ≤ e.note) → w = entryValue e)
  ∧ ChannelQuery 0x44 .susq (fun idx s w => w = if s.midi.sustain.getLsbD idx.toNat then 1 else 0)
  ∧ ChannelQuery 0x45 .nsize (fun idx s w => w = BitVec.ofNat 32 (s.midi.stackOf idx).length)

/-- `LOGR` (43_midi_query_out.md R238): the word of the entry at a position, oldest first, all ones
beyond the log's length, `BadChannel` beyond its depth. -/
def Obligations.LogQueryAnswers : Prop :=
  ∀ (idx : BitVec 4) (s : State),
    encode (.logr idx) = indexWord 0x48 idx
    ∧ (s.phase = .idle → exec (.logr idx) s = faultOutcome (.logr idx) s .badOrder)
    ∧ (s.phase = .process → s.cfg.logDepth ≤ idx.toNat →
        exec (.logr idx) s = faultOutcome (.logr idx) s .badChannel)
    ∧ (s.phase = .process → idx.toNat < s.cfg.logDepth →
        (∀ e, s.midi.log[idx.toNat]? = some e → exec (.logr idx) s =
          .next { s with resp := BitVec.ofNat 32 (e.msg.toNat * 2 ^ 16 + e.d1.toNat * 2 ^ 8
                                                  + e.d2.toNat) })
        ∧ (s.midi.log.length ≤ idx.toNat → exec (.logr idx) s = .next { s with resp := allOnes }))

/-- Queries have no side effect: a query that raises no fault leaves all state unchanged and answers
the same if repeated; the one-tick flags are cleared by LOAD only (20_memory.md R85). -/
def Obligations.QueriesHaveNoSideEffect : Prop :=
  (∀ (i : Instr) (s t : State), i.isQuery = true → exec i s = .next t → t.fault = s.fault →
    t = { s with resp := t.resp } ∧ exec i t = .next t)
  ∧ ∀ (i : Instr) (s t : State), exec i s = .next t → i ≠ .load →
      t.midi.clkTick = s.midi.clkTick
      ∧ (∀ (ch : Nat) (h : ch < ninMax),
          t.ins[ch].clocked = s.ins[ch].clocked ∧ t.ins[ch].changedCv = s.ins[ch].changedCv)
      ∧ ∀ (ch : Nat) (h : ch < noutMax),
          t.outs[ch].mTrig = s.outs[ch].mTrig ∧ t.outs[ch].tock = s.outs[ch].tock
          ∧ (s.outs[ch].loop = true → t.outs[ch].loop = true)

/-! ### Frame writes -/

/-- `OUT` (41_frame_io.md R170): the value is written, a rise through the gate threshold sets the
loopback flag, nothing else changes. -/
def Obligations.OutWritesAndDetectsRise : Prop :=
  ∀ (idx : BitVec 4) (imm : BitVec 16) (s : State),
    encode (.out idx imm) = indexWord 0x30 idx ||| imm.setWidth 32
    ∧ (s.phase = .idle → exec (.out idx imm) s = faultOutcome (.out idx imm) s .badOrder)
    ∧ (s.phase = .process → s.cfg.nout ≤ idx.toNat →
        exec (.out idx imm) s = faultOutcome (.out idx imm) s .badChannel)
    ∧ ∀ h : idx.toNat < noutMax, s.phase = .process → idx.toNat < s.cfg.nout →
        let c := s.outs[idx.toNat]
        let rises : Bool := !decide ((s.cfg.gateThreshold : Int) < c.out.toInt)
          && decide ((s.cfg.gateThreshold : Int) < imm.toInt)
        let d : OutChannel := { c with out := imm, loop := c.loop || rises }
        exec (.out idx imm) s = .next { s with resp := 0, outs := s.outs.set idx.toNat d }

/-- `CLKOUT` (R171, R172): without a skip probability no word is drawn; with one, a word is drawn
and the pulse is skipped when it falls below; a pulse not skipped writes the high code, arms the
countdown and sets the loopback flag of an output that was not high. -/
def Obligations.ClkoutPulsesOrSkips : Prop :=
  ∀ (idx : BitVec 4) (imm : BitVec 16) (s : State),
    encode (.clkout idx imm) = indexWord 0x31 idx ||| imm.setWidth 32
    ∧ (s.phase = .idle → exec (.clkout idx imm) s = faultOutcome (.clkout idx imm) s .badOrder)
    ∧ (s.phase = .process → s.cfg.nout ≤ idx.toNat →
        exec (.clkout idx imm) s = faultOutcome (.clkout idx imm) s .badChannel)
    ∧ ∀ h : idx.toNat < noutMax, s.phase = .process → idx.toNat < s.cfg.nout →
        ∃ gate : Code, holdsCode gate s.cfg.gateHighCode ∧
        let c := s.outs[idx.toNat]
        let wasHigh := decide ((s.cfg.gateThreshold : Int) < c.out.toInt)
        let outs := s.outs.set idx.toNat { c with
          out := gate, clockCd := imm, loop := c.loop || !wasHigh }
        let r := s.inputs.rng.toNat % 100
        (s.clkSkip = 0 → exec (.clkout idx imm) s = .next { s with resp := 0, outs := outs })
        ∧ (s.clkSkip ≠ 0 → r < s.clkSkip.toNat →
            exec (.clkout idx imm) s = .next { s with resp := 1, rngDraws := s.rngDraws + 1 })
        ∧ (s.clkSkip ≠ 0 → s.clkSkip.toNat ≤ r → exec (.clkout idx imm) s =
            .next { s with resp := 0, rngDraws := s.rngDraws + 1, outs := outs })

/-- `STARTLAG` loads the fixed lag and nothing else, also while a countdown runs (R176). -/
def Obligations.StartlagLoadsCountdown : Prop :=
  ∀ (idx : BitVec 4) (s : State),
    encode (.startlag idx) = indexWord 0x32 idx
    ∧ (s.phase = .idle → exec (.startlag idx) s = faultOutcome (.startlag idx) s .badOrder)
    ∧ (s.phase = .process → s.cfg.nin ≤ idx.toNat →
        exec (.startlag idx) s = faultOutcome (.startlag idx) s .badChannel)
    ∧ ∀ h : idx.toNat < ninMax, s.phase = .process → idx.toNat < s.cfg.nin →
        ∃ lag : BitVec 8, holdsNat lag s.cfg.adcLagTicks ∧
        let d : InChannel := { s.ins[idx.toNat] with lagCd := lag }
        exec (.startlag idx) s = .next { s with resp := 0, ins := s.ins.set idx.toNat d }

/-! ### LOAD -/

/-- Every LOAD in PH_IDLE completes: the tick is counted, the phase is PH_PROCESS, the inbound queue
is empty, and whatever no sub-step names is as it was (40_tick_phases.md R130, R131). From the state `p`
after L1 to L4, the messages of the queue are dispatched, oldest first (R138), and then the clock step
runs once (R139); L5 and L6 leave the input lanes alone. -/
def Obligations.LoadBeginsTick : Prop :=
  ∀ s : State, s.phase = .idle → ∃ t, exec .load s = .next t
    ∧ t.tickCount = s.tickCount + 1 ∧ t.phase = .process ∧ t.resp = 0 ∧ t.midi.rx = []
    ∧ t.cfg = s.cfg ∧ t.resetAsserted = s.resetAsserted ∧ t.pending = s.pending
    ∧ t.inputs = s.inputs ∧ t.clkSkip = s.clkSkip
    ∧ t.rngDraws = s.rngDraws ∧ t.fault = s.fault ∧ t.dac = s.dac ∧ t.midiOut = s.midiOut
    ∧ t.midi.clkDiv = s.midi.clkDiv ∧ t.midi.autoOut = s.midi.autoOut
    ∧ t.midi.moHold = s.midi.moHold ∧ t.midi.rxqOvf = s.midi.rxqOvf
    ∧ t.clk.shuffle = s.clk.shuffle ∧ t.clk.syncPpqn = s.clk.syncPpqn
    ∧ t.clk.syncSrc = s.clk.syncSrc ∧ t.clk.tapBuf = s.clk.tapBuf ∧ t.clk.tapN = s.clk.tapN
    ∧ t.clk.lastTap = s.clk.lastTap ∧ t.clk.lastTapValid = s.clk.lastTapValid
    ∧ (∀ (ch : Nat) (h : ch < noutMax),
        t.outs[ch].prevOut = s.outs[ch].prevOut ∧ t.outs[ch].mapMch = s.outs[ch].mapMch
        ∧ t.outs[ch].mapFn = s.outs[ch].mapFn ∧ t.outs[ch].moFn = s.outs[ch].moFn
        ∧ t.outs[ch].moChan = s.outs[ch].moChan ∧ t.outs[ch].mult = s.outs[ch].mult
        ∧ t.outs[ch].sndNote = s.outs[ch].sndNote ∧ t.outs[ch].sndChan = s.outs[ch].sndChan
        ∧ (s.cfg.nout ≤ ch → t.outs[ch] = s.outs[ch]))
    ∧ ∃ p : State, t = { (s.midi.rx.foldl State.processMidi p).clockStep with resp := 0 }
      ∧ p = { s with
              tickCount := s.tickCount + 1, phase := .process, ins := t.ins, outs := p.outs,
              midi := { s.midi with clkTick := false, rx := [], tx := s.midi.tx ++ releaseOffs s } }
      ∧ ∀ (ch : Nat) (h : ch < noutMax),
          let c := s.outs[ch]
          (ch < s.cfg.nout → p.outs[ch] = { c with
            loop := false, mTrig := false, tock := false,
            clockCd := if c.clockCd = 0 then 0 else c.clockCd - 1,
            out := if c.clockCd = 1 then 0 else c.out,
            noteoffCd := if c.noteoffCd = 0 then 0 else c.noteoffCd - 1,
            sndValid := c.sndValid && c.noteoffCd != 1 })
          ∧ (s.cfg.nout ≤ ch → p.outs[ch] = c)

/-- LOAD's signal conditioning, lane by lane: debounce and edge, ticks since clock, sampling and
change detection (R135, R136, R137). -/
def Obligations.LoadConditionsInputs : Prop :=
  ∀ s : State, s.phase = .idle → ∃ t, exec .load s = .next t ∧ ∀ (ch : Nat) (h : ch < ninMax),
    ch < s.cfg.nin →
    let c := s.ins[ch]
    let d := t.ins[ch]
    let raw := s.inputs.gateIn[ch]
    let v := s.inputs.adc[ch]
    (raw = c.gateHigh → d.gateHigh = c.gateHigh ∧ d.dbCnt = 0)
    ∧ (raw ≠ c.gateHigh → s.cfg.debounceTicks ≤ c.dbCnt.toNat + 1 →
        d.gateHigh = raw ∧ d.dbCnt = 0)
    ∧ (raw ≠ c.gateHigh → c.dbCnt.toNat + 1 < s.cfg.debounceTicks →
        d.gateHigh = c.gateHigh ∧ holdsNat d.dbCnt (c.dbCnt.toNat + 1))
    ∧ (d.clocked = true ↔ c.gateHigh = false ∧ d.gateHigh = true)
    ∧ (d.clocked = true → d.tsc = 0)
    ∧ (d.clocked = false → d.tsc = if c.tsc = 0xFFFFFFFF#32 then 0xFFFFFFFF#32 else c.tsc + 1)
    ∧ d.inCv = v
    ∧ (d.changedCv = true ↔ s.cfg.changeThreshold < (v.toInt - c.lastCv.toInt).natAbs)
    ∧ (d.changedCv = true → d.lastCv = v) ∧ (d.changedCv = false → d.lastCv = c.lastCv)

/-- LOAD steps every countdown once (40_tick_phases.md R133, R134). Only a clock-output countdown's
transition from 1 to 0 forces the output to 0, whatever messages and clock steps the same LOAD
handles. A note-off countdown that expires under a sounding note emits its Note-Off, whatever
`auto_midi_out` is; the tick's list holds these, ascending, then at most the engine's Clock. -/
def Obligations.LoadStepsCountdowns : Prop :=
  ∀ s : State, s.phase = .idle → ∃ t, exec .load s = .next t
    ∧ (∀ (ch : Nat) (h : ch < noutMax), ch < s.cfg.nout →
      (s.outs[ch].clockCd = 0 → t.outs[ch].clockCd = 0 ∧ t.outs[ch].out = s.outs[ch].out)
      ∧ (s.outs[ch].clockCd = 1 → t.outs[ch].clockCd = 0 ∧ t.outs[ch].out = 0)
      ∧ (1 < s.outs[ch].clockCd.toNat → t.outs[ch].clockCd = s.outs[ch].clockCd - 1
          ∧ t.outs[ch].out = s.outs[ch].out))
    ∧ (∀ (ch : Nat) (h : ch < ninMax), ch < s.cfg.nin →
        t.ins[ch].lagCd = if s.ins[ch].lagCd = 0 then 0 else s.ins[ch].lagCd - 1)
    ∧ (∀ (ch : Nat) (h : ch < noutMax), ch < s.cfg.nout →
        t.outs[ch].noteoffCd = (if s.outs[ch].noteoffCd = 0 then 0 else s.outs[ch].noteoffCd - 1)
        ∧ t.outs[ch].sndValid = (s.outs[ch].sndValid && s.outs[ch].noteoffCd != 1))
    ∧ ∃ clk : List OutMsg, (clk = [] ∨ clk = [{ status := 0xF8, d1 := 0, d2 := 0 }])
        ∧ t.midi.tx = s.midi.tx ++ releaseOffs s ++ clk

/-- LOAD clears the one-tick flags before anything in the tick can set them: the loopback flags are
clear after it, the trigger requests and the clock tick where no message is drained, the engine's
ticks where no message is drained and the engine is stopped (R132). -/
def Obligations.LoadClearsOneTickFlags : Prop :=
  ∀ s : State, s.phase = .idle → ∃ t, exec .load s = .next t
    ∧ (∀ (ch : Nat) (h : ch < noutMax), ch < s.cfg.nout → t.outs[ch].loop = false)
    ∧ (s.midi.rx = [] → t.midi.clkTick = false
        ∧ ∀ (ch : Nat) (h : ch < noutMax), ch < s.cfg.nout → t.outs[ch].mTrig = false)
    ∧ (s.midi.rx = [] → s.clk.state = .stopped →
        ∀ (ch : Nat) (h : ch < noutMax), ch < s.cfg.nout → t.outs[ch].tock = false)

/-! ### Inbound MIDI -/

/-- Every `M.*` command, in either phase, only appends `status, d1, d2` of its word to the inbound
queue, or drops the message and sets the sticky overflow flag when the queue is full; a word with bit
15 or bit 7 set is no such command (42_midi_in.md R190). -/
def Obligations.MidiCommandsOnlyEnqueue : Prop :=
  (∀ w : Word, opByte w = 0x10#8 → w.getLsbD 15 = true ∨ w.getLsbD 7 = true →
    decode w = .error .reservedBits)
  ∧ ∀ (i : Instr) (s : State), opByte (encode i) = 0x10#8 →
    let w := encode i
    let m : MidiMsg :=
      { status := w.extractLsb' 16 8, d1 := w.extractLsb' 8 7, d2 := w.extractLsb' 0 7 }
    (s.midi.rx.length < s.cfg.rxqDepth →
      exec i s = .next { s with resp := 0, midi := { s.midi with rx := s.midi.rx ++ [m] } })
    ∧ (s.cfg.rxqDepth ≤ s.midi.rx.length →
      exec i s = .next { s with resp := 0, midi := { s.midi with rxqOvf := true } })

/-- Note-On (42_midi_in.md R199): the note becomes the last entry of its channel's stack, a
duplicate promoted; its pitch class is set; the matching outputs are recomputed by function; nothing
else changes but the log. -/
def Obligations.NoteOnPromotesAndDrivesOutputs : Prop :=
  ∀ (s : State) (mch : BitVec 4) (n v : BitVec 7), distinctNotes (s.midi.stackOf mch) →
    let t := s.processMidi { status := 0x90#8 ||| mch.setWidth 8, d1 := n, d2 := v }
    let st := withoutNote (s.midi.stackOf mch) n ++ [{ note := n, velocity := v }]
    let midi : MidiState :=
      { s.midi with
        log := t.midi.log, stack := s.midi.stack.set mch.toNat st mch.isLt,
        semitoneMask := s.midi.semitoneMask ||| (1#12 <<< (n.toNat % 12)) }
    encode (.mNoteon mch n v) = midiWord (0x90 + mch.toNat) n v
    ∧ t = { s with outs := t.outs, midi := midi }
    ∧ ∀ (ch : Nat) (h : ch < noutMax),
        let c := s.outs[ch]
        let drives (v : Int) : Prop := ∃ x, holdsCode x v ∧ t.outs[ch] = { c with mOut := x }
        (s.cfg.nout ≤ ch ∨ c.mapMch ≠ mch → t.outs[ch] = c)
        ∧ (ch < s.cfg.nout → c.mapMch = mch →
            (c.mapFn = .velocity → drives (v.toNat * s.cfg.cvMax / 127 : Nat))
            ∧ (c.mapFn = .gate → drives s.cfg.gateHighCode)
            ∧ (c.mapFn = .trigAlways → t.outs[ch] = { c with mTrig := true })
            ∧ (c.mapFn = .trigFirst →
              t.outs[ch] = { c with mTrig := c.mTrig || decide (st.length = 1) })
            ∧ (∀ k, selectedNote c.mapFn st = some k →
              drives (((k : Int) - s.cfg.noteCvZero) * s.cfg.codesPerSemitone))
            ∧ (c.mapFn ∈ [MapFn.off, .cc, .aftertouch, .pitchbend, .clock, .start] →
              t.outs[ch] = c))

/-- The note-selection functions of a non-empty stack (R200, R193). -/
def Obligations.NoteSelectionFunctions : Prop :=
  ∀ (st : List NoteEntry) (e : NoteEntry),
    selectedNote .noteLast (st ++ [e]) = some e.note.toNat
    ∧ selectedNote .noteInv (st ++ [e]) = some (127 - e.note.toNat)
    ∧ selectedNote .notePedal (e :: st) = some e.note.toNat
    ∧ (∀ (fn : MapFn) (k : Nat), (fn, k) ∈ [(MapFn.notePoly2, 2), (.notePoly3, 3), (.notePoly4, 4)] →
        (∀ u, u.length + 1 = k → selectedNote fn (st ++ e :: u) = some e.note.toNat)
        ∧ (st.length + 1 < k → selectedNote fn (e :: st) = some e.note.toNat))
    ∧ (e ∈ st → (∀ e' ∈ st, e.note ≤ e'.note) → selectedNote .noteMin st = some e.note.toNat)
    ∧ (e ∈ st → (∀ e' ∈ st, e'.note ≤ e.note) → selectedNote .noteMax st = some e.note.toNat)
    ∧ ∀ fn : MapFn, selectedNote fn [] = none

/-- Note-Off (R204): the note leaves its channel's stack, also while sustain is latched, and an
absent note changes no stack; only while it is not latched are note-class outputs recomputed and,
on an empty stack, gates lowered. -/
def Obligations.NoteOffRemovesAndRespectsSustain : Prop :=
  ∀ (s : State) (mch : BitVec 4) (n v : BitVec 7), distinctNotes (s.midi.stackOf mch) →
    let t := s.processMidi { status := 0x80#8 ||| mch.setWidth 8, d1 := n, d2 := v }
    let st := withoutNote (s.midi.stackOf mch) n
    let stack := s.midi.stack.set mch.toNat st mch.isLt
    encode (.mNoteoff mch n v) = midiWord (0x80 + mch.toNat) n v
    ∧ t = { s with outs := t.outs, midi := { s.midi with log := t.midi.log, stack := stack } }
    ∧ ((∀ e ∈ s.midi.stackOf mch, e.note ≠ n) → t.midi.stack = s.midi.stack)
    ∧ ∀ (ch : Nat) (h : ch < noutMax),
        let c := s.outs[ch]
        let drives (v : Int) : Prop := ∃ x, holdsCode x v ∧ t.outs[ch] = { c with mOut := x }
        (s.cfg.nout ≤ ch ∨ c.mapMch ≠ mch ∨ s.midi.sustain.getLsbD mch.toNat = true →
          t.outs[ch] = c)
        ∧ (ch < s.cfg.nout → c.mapMch = mch → s.midi.sustain.getLsbD mch.toNat = false →
            (c.mapFn = .gate → t.outs[ch] = if st = [] then { c with mOut := 0 } else c)
            ∧ (∀ k, selectedNote c.mapFn st = some k →
              drives (((k : Int) - s.cfg.noteCvZero) * s.cfg.codesPerSemitone))
            ∧ (c.mapFn ≠ .gate → selectedNote c.mapFn st = none → t.outs[ch] = c))

/-- Stop and SystemReset (R198, R216, 44_clock_engine.md R265, R268): every stack and latch is
cleared whatever the state, gates are low, the engine is stopped and emits clock again, the message is
logged; nothing else changes. -/
def Obligations.StopPanicsUnconditionally : Prop :=
  (∀ d1 d2 : BitVec 7, encode (.mStop d1 d2) = midiWord 0xFC d1 d2
    ∧ encode (.mReset d1 d2) = midiWord 0xFF d1 d2)
  ∧ ∀ (s : State) (m : MidiMsg), m.status = 0xFC#8 ∨ m.status = 0xFF#8 →
    let t := s.processMidi m
    let midi : MidiState :=
      { s.midi with
        log := s.logWith m.status m.d1 m.d2, running := false, stack := Vector.replicate nmidiMax [], sustain := 0,
        semitoneMask := 0 }
    let clk : ClockState := { s.clk with state := .stopped, emitClk := true, syncSeen := false }
    t = { s with outs := t.outs, midi := midi, clk := clk }
    ∧ ∀ (ch : Nat) (h : ch < noutMax),
        (ch < s.cfg.nout → t.outs[ch] = { s.outs[ch] with
          mOut := if s.outs[ch].mapFn = .gate then 0 else s.outs[ch].mOut, shufCd := 0 })
        ∧ (s.cfg.nout ≤ ch → t.outs[ch] = s.outs[ch])

/-- Start and Continue (42_midi_in.md R197, R215, 44_clock_engine.md R264, R267): the transport
runs, the ppqn counter and the beat restart, local clock emission is off, start outputs are
triggered, the message is logged; nothing else changes. -/
def Obligations.StartForcesRunning : Prop :=
  (∀ d1 d2 : BitVec 7, encode (.mStart d1 d2) = midiWord 0xFA d1 d2
    ∧ encode (.mCont d1 d2) = midiWord 0xFB d1 d2)
  ∧ ∀ (s : State) (m : MidiMsg), m.status = 0xFA#8 ∨ m.status = 0xFB#8 →
    let t := s.processMidi m
    let midi : MidiState :=
      { s.midi with log := s.logWith m.status m.d1 m.d2, running := true, ppqnCnt := 0 }
    let clk : ClockState :=
      { s.clk with
        state := .running, emitClk := false, beatPos := 0, beatCount := 0, syncCnt := 0,
        syncSeen := false, sinceSync := 0 }
    t = { s with outs := t.outs, midi := midi, clk := clk }
    ∧ ∀ (ch : Nat) (h : ch < noutMax),
        let c := s.outs[ch]
        let d : OutChannel :=
          { c with
            mTrig := c.mTrig || decide (c.mapFn = .start), pulsePar := false, shufCd := 0 }
        (ch < s.cfg.nout → t.outs[ch] = d) ∧ (s.cfg.nout ≤ ch → t.outs[ch] = c)

/-- A Clock message (42_midi_in.md R196): the counter is counted, then compared with the divisor; on
a wrap the tick flag is set and the clock outputs are triggered; it is not logged. -/
def Obligations.ClockMessageCountsThenWraps : Prop :=
  (∀ d1 d2 : BitVec 7, encode (.mClock d1 d2) = midiWord 0xF8 d1 d2)
  ∧ ∀ (s : State) (m : MidiMsg), m.status = 0xF8#8 →
    let t := s.processMidi m
    (s.midi.ppqnCnt.toNat + 1 < s.midi.clkDiv.toNat →
      t = { s with midi := { s.midi with ppqnCnt := s.midi.ppqnCnt + 1 } })
    ∧ (s.midi.clkDiv.toNat ≤ s.midi.ppqnCnt.toNat + 1 →
      t = { s with outs := t.outs, midi := { s.midi with ppqnCnt := 0, clkTick := true } }
      ∧ ∀ (ch : Nat) (h : ch < noutMax),
          let c := s.outs[ch]
          t.outs[ch] = { c with
            mTrig := c.mTrig || decide (ch < s.cfg.nout ∧ c.mapFn = .clock) })

/-- The clock divisor (42_midi_in.md R196): of `n` Clock messages from a counter of 0, exactly
`floor(n / N)` wrap, and the counter is left at the remainder. -/
def Obligations.ClockDivisorYieldsFloorEvents : Prop :=
  ∀ (s : State) (n : Nat), s.midi.clkDiv ≠ 0 → s.midi.ppqnCnt = 0 →
    (afterClocks s n).midi.ppqnCnt.toNat = n % s.midi.clkDiv.toNat
    ∧ ((List.range n).countP fun k => (afterClocks s (k + 1)).midi.ppqnCnt == 0)
        = n / s.midi.clkDiv.toNat

/-- Control changes (R205 to R208): controller 64 is the pedal, whose release lowers the gates of an
empty stack; any other is learned by an output that has no number and passed to those that match. -/
def Obligations.ControlChangeSustainsOrLearns : Prop :=
  ∀ (s : State) (mch : BitVec 4) (num val : BitVec 7),
    let t := s.processMidi { status := 0xB0#8 ||| mch.setWidth 8, d1 := num, d2 := val }
    let log := t.midi.log
    let latch := 1#16 <<< mch.toNat
    encode (.mCc mch num val) = midiWord (0xB0 + mch.toNat) num val
    ∧ (num = 64 → 64 ≤ val.toNat →
        t = { s with midi := { s.midi with log := log, sustain := s.midi.sustain ||| latch } })
    ∧ (num = 64 → val.toNat < 64 →
        (let midi : MidiState := { s.midi with log := log, sustain := s.midi.sustain &&& ~~~latch }
         t = { s with outs := t.outs, midi := midi })
        ∧ ∀ (ch : Nat) (h : ch < noutMax), t.outs[ch] =
            if ch < s.cfg.nout ∧ s.outs[ch].mapMch = mch ∧ s.outs[ch].mapFn = .gate
              ∧ s.midi.stackOf mch = [] then { s.outs[ch] with mOut := 0 } else s.outs[ch])
    ∧ (num ≠ 64 →
        t = { s with outs := t.outs, midi := { s.midi with log := log } }
        ∧ ∀ (ch : Nat) (h : ch < noutMax),
            let c := s.outs[ch]
            let listens : Prop := ch < s.cfg.nout ∧ c.mapMch = mch ∧ c.mapFn = .cc
            let passed := val.toNat * s.cfg.cvMax / 127
            (¬ listens → t.outs[ch] = c)
            ∧ (listens → c.ccUnset = true ∨ c.mapCc = num →
              ∃ x, holdsCode x passed
                ∧ t.outs[ch] = { c with mapCc := num, ccUnset := false, mOut := x })
            ∧ (listens → c.ccUnset = false → c.mapCc ≠ num → t.outs[ch] = c))

/-- Aftertouch and pitch bend (R210, R211, R212): poly pressure counts only for the most recent note;
bend is scaled about its centre, truncating toward zero. -/
def Obligations.PressureAndBendDriveOutputs : Prop :=
  ∀ (s : State) (mch : BitVec 4) (d1 d2 : BitVec 7) (ch : Nat) (h : ch < noutMax),
    let c := s.outs[ch]
    let after (typ : BitVec 8) := s.processMidi { status := typ ||| mch.setWidth 8, d1 := d1, d2 := d2 }
    let touched := ch < s.cfg.nout ∧ c.mapMch = mch ∧ c.mapFn = .aftertouch
    let top := ∃ st e, s.midi.stackOf mch = st ++ [e] ∧ e.note = d1
    let v14 := d2.toNat * 128 + d1.toNat
    let drives (typ : BitVec 8) (v : Int) : Prop :=
      ∃ x, holdsCode x v ∧ (after typ).outs[ch] = { c with mOut := x }
    encode (.mAtpoly mch d1 d2) = midiWord (0xA0 + mch.toNat) d1 d2
    ∧ encode (.mAtchan mch d1 d2) = midiWord (0xD0 + mch.toNat) d1 d2
    ∧ encode (.mPbend mch d1 d2) = midiWord (0xE0 + mch.toNat) d1 d2
    ∧ (∀ typ ∈ [0xA0#8, 0xD0#8, 0xE0#8], after typ =
      { s with outs := (after typ).outs, midi := { s.midi with log := (after typ).midi.log } })
    ∧ (touched ∧ top → drives 0xA0#8 (d2.toNat * s.cfg.cvMax / 127 : Nat))
    ∧ (¬ (touched ∧ top) → (after 0xA0#8).outs[ch] = c)
    ∧ (touched → drives 0xD0#8 (d1.toNat * s.cfg.cvMax / 127 : Nat))
    ∧ (¬ touched → (after 0xD0#8).outs[ch] = c)
    ∧ (ch < s.cfg.nout ∧ c.mapMch = mch ∧ c.mapFn = .pitchbend →
        drives 0xE0#8 (Int.tdiv (((v14 : Int) - 8192) * s.cfg.cvMax) 8192))
    ∧ (¬ (ch < s.cfg.nout ∧ c.mapMch = mch ∧ c.mapFn = .pitchbend) → (after 0xE0#8).outs[ch] = c)

/-- A message of no dispatched type is discarded: no state changes, nothing is logged (R213,
30_encoding.md R111). -/
def Obligations.UndispatchedStatusIsDiscarded : Prop :=
  ∀ (s : State) (m : MidiMsg),
    m.status.toNat ∈ [0xF9, 0xFD, 0xFE] ∨ m.status.toNat < 0x80
      ∨ (0xC0 ≤ m.status.toNat ∧ m.status.toNat ≤ 0xCF)
      ∨ (0xF0 ≤ m.status.toNat ∧ m.status.toNat ≤ 0xF7) →
    s.processMidi m = s

/-- The activity log (42_midi_in.md R195): every dispatched message but Clock is appended with its
type byte, and the oldest entry of a full log leaves. -/
def Obligations.ActivityLogKeepsTheNewest : Prop :=
  ∀ (s : State) (typ : BitVec 8) (mch : BitVec 4) (d1 d2 : BitVec 7), 0 < s.cfg.logDepth →
    s.midi.log.length ≤ s.cfg.logDepth →
    let newest (msg : BitVec 8) : List LogEntry :=
      let e : LogEntry := { msg := msg, d1 := d1, d2 := d2 }
      (s.midi.log ++ [e]).drop (s.midi.log.length + 1 - s.cfg.logDepth)
    (typ ∈ [0x80#8, 0x90#8, 0xA0#8, 0xB0#8, 0xD0#8, 0xE0#8] →
      (s.processMidi { status := typ ||| mch.setWidth 8, d1 := d1, d2 := d2 }).midi.log = newest typ)
    ∧ (typ ∈ [0xFA#8, 0xFB#8, 0xFC#8, 0xFF#8] →
      (s.processMidi { status := typ, d1 := d1, d2 := d2 }).midi.log = newest typ)
    ∧ (s.processMidi { status := 0xF8#8, d1 := d1, d2 := d2 }).midi.log = s.midi.log

/-! ### SEND and the outbound path -/

/-- SEND in PH_PROCESS (40_tick_phases.md R140 to R144): each DAC carries its output, the whole of
`midi_tx` and then the path's messages leave, `midi_tx` is empty, `prev_out` is `out`, the phase is
PH_IDLE; without `auto_midi_out` the path does nothing; nothing else changes. -/
def Obligations.SendDrivesPortsAndEndsTick : Prop :=
  ∀ s : State, s.phase = .process → ∃ t, exec .send s = .next t
    ∧ t = { s with
            dac := t.dac, midiOut := t.midiOut, outs := t.outs, phase := .idle, resp := 0,
            midi := { s.midi with tx := [] } }
    ∧ (∀ (ch : Nat) (h : ch < ndacMax), ch < s.cfg.ndac → t.dac[ch] =
        { code := (s.outs[ch]'(Nat.lt_trans h (by decide))).out, octave := s.cfg.dacOctave })
    ∧ (∃ path, t.midiOut = s.midi.tx ++ path ∧ (s.midi.autoOut = false → path = []))
    ∧ ∀ (ch : Nat) (h : ch < noutMax),
        let c := s.outs[ch]
        let d := t.outs[ch]
        d = { c with
              prevOut := if ch < s.cfg.nout then c.out else c.prevOut,
              sndValid := d.sndValid, sndNote := d.sndNote, sndChan := d.sndChan,
              noteoffCd := d.noteoffCd }
        ∧ (s.midi.autoOut = false ∨ c.moFn ≠ .note →
            d.sndValid = c.sndValid ∧ d.sndNote = c.sndNote ∧ d.sndChan = c.sndChan
            ∧ d.noteoffCd = c.noteoffCd)

/-- The outbound path (43_midi_query_out.md R243 to R246), output by output in ascending order: with a
gate on the next output, a rise starts a note and arms the release, a moved pitch retriggers a sounding
one; without, a changed note number retriggers; the Note-Off of the old note, where one sounds, comes
right before the Note-On; an output that is no note output emits nothing. The note number of a code is
00_scope.md R11's `CVToNote`. -/
def Obligations.NoteOutputRetriggersOffBeforeOn : Prop :=
  ∀ s : State, s.phase = .process → s.midi.autoOut = true → 0 < s.cfg.codesPerSemitone →
    ∃ t, exec .send s = .next t ∧ ∃ (velocity : BitVec 8) (msgs : Nat → List OutMsg),
      holdsNat velocity s.cfg.moVelocity
      ∧ t.midiOut = s.midi.tx ++ (List.range s.cfg.nout).flatMap msgs
      ∧ ∀ (ch : Nat) (h : ch < noutMax), ch < s.cfg.nout →
        let c := s.outs[ch]
        let d := t.outs[ch]
        let semitones (v : Code) : Int :=
          Int.fdiv (v.toInt + s.cfg.codesPerSemitone / 2) s.cfg.codesPerSemitone
        let note (v : Code) : BitVec 7 :=
          BitVec.ofInt 7 (max 0 (min (semitones v + s.cfg.noteCvZero) 127))
        let now := note c.out
        let noteOff : OutMsg :=
          { status := 0x80#8 ||| c.sndChan.setWidth 8, d1 := c.sndNote.setWidth 8, d2 := 0 }
        let noteOn : OutMsg :=
          { status := 0x90#8 ||| c.moChan.setWidth 8, d1 := now.setWidth 8, d2 := velocity }
        let quiet : Prop := msgs ch = [] ∧ d = { c with prevOut := c.out }
        let sounds (cd : BitVec 16) : Prop :=
          msgs ch = (if c.sndValid then [noteOff] else []) ++ [noteOn]
          ∧ d = { c with
                  prevOut := c.out, sndValid := true, sndNote := now, sndChan := c.moChan,
                  noteoffCd := cd }
        (c.moFn ≠ .note → quiet)
        ∧ (∀ hn : ch + 1 < noutMax, c.moFn = .note → ch + 1 < s.cfg.nout →
          s.outs[ch + 1].moFn = .gate →
          let rise : Prop := ¬ (s.cfg.gateThreshold : Int) < s.outs[ch + 1].prevOut.toInt
            ∧ (s.cfg.gateThreshold : Int) < s.outs[ch + 1].out.toInt
          (rise → sounds s.midi.moHold)
          ∧ (¬ rise → c.sndValid = true → now ≠ c.sndNote → sounds c.noteoffCd)
          ∧ (¬ rise → c.sndValid = false ∨ now = c.sndNote → quiet))
        ∧ (c.moFn = .note →
          (∀ hn : ch + 1 < noutMax, ch + 1 < s.cfg.nout → s.outs[ch + 1].moFn ≠ .gate) →
          (now ≠ note c.prevOut → sounds c.noteoffCd) ∧ (now = note c.prevOut → quiet))

/-! ### Clock and tempo engine -/

/-- `PLAYSTOP` (44_clock_engine.md R262, R267, R268): the cycle RUNNING, STOPPED, PAUSED, RUNNING
with the start and stop actions, and nothing else. -/
def Obligations.PlaystopCycles : Prop :=
  ∀ s : State,
    encode .playstop = 0x50000000#32
    ∧ (s.phase = .idle → exec .playstop s = faultOutcome .playstop s .badOrder)
    ∧ (s.phase = .process →
      let stopped : ClockState := { s.clk with state := .stopped, syncSeen := false }
      let paused : ClockState := { s.clk with state := .paused }
      let started : ClockState :=
        { s.clk with
          state := .running, beatPos := 0, beatCount := 0, syncCnt := 0, syncSeen := false,
          sinceSync := 0 }
      ∃ t, exec .playstop s = .next t
      ∧ (s.clk.state = .running → t = { s with resp := 0, outs := t.outs, clk := stopped }
          ∧ ∀ (ch : Nat) (h : ch < noutMax), ch < s.cfg.nout →
              t.outs[ch] = { s.outs[ch] with shufCd := 0 })
      ∧ (s.clk.state = .stopped → t = { s with resp := 0, clk := paused })
      ∧ (s.clk.state = .paused → t = { s with resp := 0, outs := t.outs, clk := started }
          ∧ ∀ (ch : Nat) (h : ch < noutMax), ch < s.cfg.nout →
              t.outs[ch] = { s.outs[ch] with pulsePar := false, shufCd := 0 })
      ∧ ∀ (ch : Nat) (h : ch < noutMax), s.cfg.nout ≤ ch → t.outs[ch] = s.outs[ch])

/-- `TAP` (R269): the first press only notes the tick; a too-long interval resets the buffer; an
interval is stored; the one that makes `TAP_N` sets the tempo from the average and empties the buffer.
The last clause is the gesture of the default `TAP_N = 3`. -/
def Obligations.TapSetsTempoFromThreeIntervals : Prop :=
  ∀ s : State,
    encode .tap = 0x51000000#32
    ∧ (s.phase = .idle → exec .tap s = faultOutcome .tap s .badOrder)
    ∧ (s.phase = .process →
      let iv := s.tickCount - s.clk.lastTap
      let noted : ClockState := { s.clk with lastTap := s.tickCount, lastTapValid := true }
      let leaves (k : ClockState) : Prop := exec .tap s = .next { s with resp := 0, clk := k }
      let short : Prop := s.clk.lastTapValid = true ∧ iv.toNat ≤ s.cfg.tapMaxTicks
      let held := s.clk.tapBuf.set s.clk.tapN iv
      let sets (sum : Nat) : Prop :=
        let avg := sum / s.cfg.tapN
        let b := if avg = 0 then s.cfg.bpmMax
          else max s.cfg.bpmMin (min (s.cfg.ticksPerMin / avg) s.cfg.bpmMax)
        leaves { noted with
          tapBuf := held, tapN := 0, bpm := BitVec.ofNat 9 b,
          beatTicks := BitVec.ofNat 20 (s.cfg.ticksPerMin / b) }
      (s.clk.lastTapValid = false → leaves noted)
      ∧ (s.clk.lastTapValid = true → s.cfg.tapMaxTicks < iv.toNat →
          leaves { noted with tapN := 0 })
      ∧ (short → s.clk.tapN + 1 ≠ s.cfg.tapN →
          leaves { noted with tapBuf := held, tapN := s.clk.tapN + 1 })
      ∧ (short → s.clk.tapN + 1 = s.cfg.tapN → s.cfg.legal = true →
          sets (held.map BitVec.toNat).sum)
      ∧ (∀ first second third : BitVec 32, s.clk.tapBuf = [first, second, third] →
          short → s.clk.tapN = 2 → s.cfg.tapN = 3 → s.cfg.legal = true →
          held = [first, second, iv] ∧ sets (first.toNat + second.toNat + iv.toNat)))

/-- A multiplied channel pulses at the positions `k * beat / m`, exactly `m` of them in a beat of at
least `m` ticks, with the period `beat / m`; a divided one once, at position 0 of every `d`-th beat; a
multiplier of 0 is silent (R272). -/
def Obligations.NominalPulsesPerBeat : Prop :=
  ∀ (cfg : Config) (mult : BitVec 8) (beat count : Nat),
    let n := mult.toInt
    let m := n.toNat + cfg.multPosOffset
    let d := (-n).toNat + 1
    (0 < n → ∀ p, ((∃ k, k < m ∧ k * beat / m = p) →
        nominalPulse cfg mult beat p count = some (beat / m))
      ∧ ((∀ k, k < m → k * beat / m ≠ p) → nominalPulse cfg mult beat p count = none))
    ∧ (0 < n → m ≤ beat →
      ((List.range beat).countP fun p => (nominalPulse cfg mult beat p count).isSome) = m)
    ∧ (n < 0 → ∀ p, nominalPulse cfg mult beat p count =
        if p = 0 ∧ d ∣ count then some (beat * d) else none)
    ∧ (n = 0 → ∀ p, nominalPulse cfg mult beat p count = none)

/-- `ChannelPulse` (R274): a due delayed pulse fires; a nominal pulse fires at once on even parity or
no delay, and is otherwise delayed, and flips the parity; at most one `tock`. -/
def Obligations.ChannelPulseFiresOrDelays : Prop :=
  ∀ (cfg : Config) (k : ClockState) (c : OutChannel),
    let d := channelPulse cfg k c
    let n := c.mult.toInt
    let m := n.toNat + cfg.multPosOffset
    let each := (-n).toNat + 1
    let nominal : Prop :=
      (0 < n ∧ ∃ j, j < m ∧ j * k.beatTicks.toNat / m = k.beatPos.toNat)
        ∨ (n < 0 ∧ k.beatPos = 0 ∧ k.beatCount.toNat % each = 0)
    let period := if 0 < n then k.beatTicks.toNat / m else k.beatTicks.toNat * each
    let delay := shuffleDelay cfg period k.shuffle.toNat
    let left := if c.shufCd = 0 then 0 else c.shufCd - 1
    let due := decide (c.shufCd = 1)
    (¬ nominal → d = { c with shufCd := left, tock := due })
    ∧ (nominal → c.pulsePar = false ∨ delay = 0 →
        d = { c with shufCd := left, tock := true, pulsePar := !c.pulsePar })
    ∧ (nominal → c.pulsePar = true → delay ≠ 0 →
        ∃ cd : BitVec 32, holdsNat cd delay
          ∧ d = { c with shufCd := cd, tock := due, pulsePar := false })

/-- The shuffle delay, whatever its curve, is 0 at 0 percent, monotonic in the percentage and less
than the period (R273). -/
def Obligations.ShuffleDelayLaws : Prop :=
  ∀ (cfg : Config) (period p q : Nat), cfg.legal = true → 0 < period → q ≤ cfg.shuffleMax →
    shuffleDelay cfg period 0 = 0 ∧ shuffleDelay cfg period q < period
    ∧ (p ≤ q → shuffleDelay cfg period p ≤ shuffleDelay cfg period q)

/-- `Advance()` (R278): an unlocked engine whose next position reaches `beat_ticks` is at position 0
of the next beat, also where `beat_ticks` was shortened to the position or below it (R304); any other
goes on one position, saturating. So, free-running, a beat is exactly `beat_ticks` steps. The clock
step without a sync pulse (R270): an engine that is not RUNNING changes nothing (R261); a running one
counts since the last pulse, runs `ChannelPulse` on every output that exists, emits a Clock message
exactly if one is due, advances, and changes nothing else. -/
def Obligations.BeatLastsBeatTicks : Prop :=
  (∀ k : ClockState,
    let pos := if k.beatPos = 0xFFFFFFFF#32 then k.beatPos else k.beatPos + 1
    (k.syncSeen = false ∧ k.beatTicks.toNat ≤ pos.toNat →
      k.advance = { k with beatPos := 0, beatCount := k.beatCount + 1 })
    ∧ (k.syncSeen = true ∨ pos.toNat < k.beatTicks.toNat → k.advance = { k with beatPos := pos }))
  ∧ (∀ (k : ClockState) (n : Nat), k.syncSeen = false → k.beatPos = 0 → 0 < k.beatTicks.toNat →
    (n < k.beatTicks.toNat → afterAdvances k n = { k with beatPos := BitVec.ofNat 32 n })
    ∧ afterAdvances k k.beatTicks.toNat = { k with beatCount := k.beatCount + 1 })
  ∧ ∀ s : State, s.noPulse →
    let t := s.clockStep
    let k : ClockState :=
      { s.clk with
        sinceSync := if s.clk.sinceSync = 0xFFFFFFFF#32 then s.clk.sinceSync
          else s.clk.sinceSync + 1 }
    (s.clk.state ≠ .running → t = s)
    ∧ (s.clk.state = .running →
      t = { s with
            outs := t.outs, clk := k.advance,
            midi := { s.midi with
                      tx := s.midi.tx ++ if midiClockDue s.cfg s.clk then [clockMsg] else [] } }
      ∧ ∀ (ch : Nat) (h : ch < noutMax), t.outs[ch] =
          if ch < s.cfg.nout then channelPulse s.cfg s.clk s.outs[ch] else s.outs[ch])

/-- Emission (R279): a Clock message is due while emission is enabled, at the positions
`(j * beat_ticks) div MIDI_PPQN` of the beat and at no other. In a beat of at least `MIDI_PPQN` ticks
these are exactly `MIDI_PPQN` positions; so the clock steps of a free-running beat append exactly that
many Clock messages to `midi_tx`, none while emission is disabled, and nothing else. -/
def Obligations.MidiClocksPerBeat : Prop :=
  (∀ (cfg : Config) (k : ClockState), midiClockDue cfg k = true ↔
    k.emitClk = true ∧ ∃ j, j < cfg.midiPpqn
      ∧ j * k.beatTicks.toNat / cfg.midiPpqn = k.beatPos.toNat)
  ∧ (∀ (cfg : Config) (k : ClockState), 0 < cfg.midiPpqn → cfg.midiPpqn ≤ k.beatTicks.toNat →
    ((List.range k.beatTicks.toNat).countP fun p =>
      midiClockDue cfg { k with beatPos := BitVec.ofNat 32 p })
      = if k.emitClk then cfg.midiPpqn else 0)
  ∧ ∀ s : State, s.clk.state = .running → s.noPulse → s.clk.syncSeen = false → s.clk.beatPos = 0 →
      0 < s.cfg.midiPpqn → s.cfg.midiPpqn ≤ s.clk.beatTicks.toNat →
      (afterClockSteps s s.clk.beatTicks.toNat).midi.tx
        = s.midi.tx ++ List.replicate (if s.clk.emitClk then s.cfg.midiPpqn else 0) clockMsg

/-- The clock step under an external sync pulse (R270, R276): STOPPED ignores it; PAUSED starts at
beat 0 and counts it as pulse 0; RUNNING counts it, and the pulse whose count is 0 begins a beat. In
both the engine `k` the pulse leaves, an update of the engine before it, then runs its channels, emits,
and advances; nothing else changes. Its tempo is the old one, except that a RUNNING engine that has
accepted a pulse since its start measures anew (R277, ReconcileMeasuresTheBeat). `pulses` is the
model's own history of pulses (log 7); `1 ≤ sync_ppqn` rules out a state of log 12. -/
def Obligations.ExternalSyncStartsAndRealigns : Prop :=
  ∀ (s : State) (c : InChannel), 1 ≤ s.clk.syncPpqn.toNat → s.clk.syncSrc.toNat < s.cfg.nin →
    s.ins[s.clk.syncSrc.toNat]? = some c → c.clocked = true →
    let t := s.clockStep
    let next := BitVec.ofNat 5 ((s.clk.syncCnt.toNat + 1) % s.clk.syncPpqn.toNat)
    (s.clk.state = .stopped → t = s)
    ∧ (s.clk.state = .paused → t.clk.state = .running ∧ t.clk.syncSeen = true
        ∧ t.clk.sinceSync = 0 ∧ t.clk.beatPos = 1 ∧ t.clk.beatCount = 0
        ∧ t.clk.syncCnt = BitVec.ofNat 5 (1 % s.clk.syncPpqn.toNat)
        ∧ t.clk.beatTicks = s.clk.beatTicks ∧ t.clk.bpm = s.clk.bpm)
    ∧ (s.clk.state = .running → t.clk.state = .running ∧ t.clk.syncSeen = true
        ∧ t.clk.sinceSync = 0 ∧ t.clk.syncCnt = next
        ∧ (s.clk.syncCnt = 0 → s.clk.beatPos ≠ 0 →
            t.clk.beatPos = 1 ∧ t.clk.beatCount = s.clk.beatCount + 1)
        ∧ (s.clk.syncCnt ≠ 0 ∨ s.clk.beatPos = 0 → t.clk.beatCount = s.clk.beatCount
            ∧ t.clk.beatPos = if s.clk.beatPos = 0xFFFFFFFF#32 then s.clk.beatPos
                else s.clk.beatPos + 1))
    ∧ (s.clk.state ≠ .stopped →
        let paused := s.clk.state = .paused
        let locked := s.clk.state = .running ∧ s.clk.syncSeen = true
        let k : ClockState := { s.clk with
          state := .running, syncSeen := true, sinceSync := 0
          syncCnt := if paused then BitVec.ofNat 5 (1 % s.clk.syncPpqn.toNat) else next
          beatPos := if paused ∨ s.clk.syncCnt = 0 then 0 else s.clk.beatPos
          beatCount :=
            if paused then 0
            else if s.clk.syncCnt = 0 ∧ s.clk.beatPos ≠ 0 then s.clk.beatCount + 1
            else s.clk.beatCount
          beatTicks := if locked then t.clk.beatTicks else s.clk.beatTicks
          bpm := if locked then t.clk.bpm else s.clk.bpm
          pulses :=
            { locked := s.clk.state = .running && s.clk.syncSeen
              since := if paused then 0 else satSucc s.clk.sinceSync
              ppqn := s.clk.syncPpqn } :: s.clk.pulses }
        t.clk = k.advance
        ∧ t = { s with
                outs := t.outs, clk := t.clk,
                midi := { s.midi with
                          tx := s.midi.tx ++ if midiClockDue s.cfg k then [clockMsg] else [] } }
        ∧ ∀ (ch : Nat) (h : ch < noutMax),
            let lane := s.outs[ch]
            (s.cfg.nout ≤ ch → t.outs[ch] = lane)
            ∧ (ch < s.cfg.nout → t.outs[ch] = channelPulse s.cfg k
                (if s.clk.state = .paused then { lane with pulsePar := false, shufCd := 0 }
                  else lane)))

/-- Re-measurement (R277): from the second pulse on, the beat is the spacing of the last two pulses
times `sync_ppqn`, held in its range, and the tempo follows; where the function is left open
(93_implementation_defined.md U2, log 7) the beat is still in its range. -/
def Obligations.ReconcileMeasuresTheBeat : Prop :=
  ∀ (s : State) (c : InChannel), s.cfg.legal = true → s.clk.syncSrc.toNat < s.cfg.nin →
    s.ins[s.clk.syncSrc.toNat]? = some c → c.clocked = true → s.clk.state = .running →
    s.clk.syncSeen = true →
    let t := s.clockStep
    let since := min (s.clk.sinceSync.toNat + 1) (2 ^ 32 - 1)
    (s.cfg.reconciliation = .lastSpacing → t.clk.beatTicks.toNat =
      max s.cfg.btMin (min (since * s.clk.syncPpqn.toNat) s.cfg.btMax))
    ∧ s.cfg.btMin ≤ t.clk.beatTicks.toNat ∧ t.clk.beatTicks.toNat ≤ s.cfg.btMax
    ∧ t.clk.bpm.toNat
        = max s.cfg.bpmMin (min (s.cfg.ticksPerMin / t.clk.beatTicks.toNat) s.cfg.bpmMax)

/-- No event but LOAD and `PLAYSTOP` changes `clk_state`, and a LOAD that drains nothing changes it
only from PAUSED to RUNNING, and only if the selected sync input is clocked in its tick
(44_clock_engine.md R261, R270). -/
def Obligations.ClockStateChangesOnlyByItsEvents : Prop :=
  (∀ (i : Instr) (s t : State), exec i s = .next t → i ≠ .load → i ≠ .playstop →
    t.clk.state = s.clk.state)
  ∧ ∀ s t : State, exec .load s = .next t → s.midi.rx = [] → t.clk.state ≠ s.clk.state →
      s.clk.state = .paused ∧ t.clk.state = .running ∧ s.clk.syncSrc.toNat < s.cfg.nin
        ∧ ∃ c, t.ins[s.clk.syncSrc.toNat]? = some c ∧ c.clocked = true

/-! ### Registers -/

/-- A legal `CFGW` (45_config.md R304) completes in either phase, and the register then reads
the value written, a map function and an outbound role being those of their numbers (10_state.md R43,
R52); every other implemented register reads as before, but for `BEAT_TICKS` under a
write of `BPM`, which sets both halves of the tempo; no other state changes. -/
def Obligations.LegalWriteReadsBack : Prop :=
  ∀ (addr : BitVec 8) (val : BitVec 16) (r : Reg) (s : State), s.cfg.legal = true →
    regAt s.cfg.nout addr = some r → r.writable = true → legalValue s.cfg r val = true →
    ∃ t, exec (.cfgw addr val) s = .next t ∧ readReg r t = val
      ∧ (∀ (a : BitVec 8) (q : Reg), regAt s.cfg.nout a = some q → a ≠ addr →
          (addr = 0x03#8 → a ≠ 0x86#8 ∧ a ≠ 0x87#8) → readReg q t = readReg q s)
      ∧ t.clk.beatTicks = (if addr = 0x03#8 then
          BitVec.ofNat 20 (s.cfg.ticksPerMin / val.toNat) else s.clk.beatTicks)
      ∧ t = { s with
              resp := 0, outs := t.outs, clkSkip := t.clkSkip,
              midi := { s.midi with
                        clkDiv := t.midi.clkDiv, autoOut := t.midi.autoOut,
                        moHold := t.midi.moHold },
              clk := { s.clk with
                       bpm := t.clk.bpm, beatTicks := t.clk.beatTicks,
                       shuffle := t.clk.shuffle, syncPpqn := t.clk.syncPpqn,
                       syncSrc := t.clk.syncSrc } }
      ∧ ∀ (ch : Nat) (h : ch < noutMax),
          let d := t.outs[ch]
          d = { s.outs[ch] with
                mapMch := d.mapMch, mapFn := d.mapFn, mapCc := d.mapCc, ccUnset := d.ccUnset,
                mult := d.mult, moFn := d.moFn, moChan := d.moChan }
          ∧ (ch < s.cfg.nout → addr.toNat = 0x10 + ch →
              (val.toNat / 2 ^ 8, d.mapFn) ∈ mapFnNumbers ∧ d.mapMch.toNat = val.toNat % 2 ^ 4)
          ∧ (ch < s.cfg.nout → addr.toNat = 0x28 + ch →
              (val.toNat / 2 ^ 8, d.moFn) ∈ moFnNumbers ∧ d.moChan.toNat = val.toNat % 2 ^ 4)

/-- `CFGR` of every implemented register (45_config.md R301, 10_state.md R62, R63): the answer, as a
number made of the register's fields, and no other change. -/
def Obligations.CfgrAnswersFields : Prop :=
  ∀ s : State, s.cfg.legal = true →
    let bit (b : Bool) : Nat := if b then 1 else 0
    let state := match s.clk.state with
      | .stopped => 0
      | .paused => 1
      | .running => 2
    let answers (addr v : Nat) : Prop := exec (.cfgr (BitVec.ofNat 8 addr)) s =
      .next { s with resp := BitVec.ofNat 32 v }
    answers 0x00 (bit s.midi.autoOut) ∧ answers 0x01 s.midi.clkDiv.toNat
    ∧ answers 0x02 s.clkSkip.toNat ∧ answers 0x03 s.clk.bpm.toNat
    ∧ answers 0x04 s.clk.shuffle.toNat ∧ answers 0x05 s.clk.syncPpqn.toNat
    ∧ answers 0x06 s.clk.syncSrc.toNat ∧ answers 0x07 s.midi.moHold.toNat
    ∧ (∀ (ch : Nat) (h : ch < noutMax), ch < s.cfg.nout →
        (∀ n, (n, s.outs[ch].mapFn) ∈ mapFnNumbers →
          answers (0x10 + ch) (n * 256 + s.outs[ch].mapMch.toNat))
        ∧ answers (0x18 + ch) (bit s.outs[ch].ccUnset * 128 + s.outs[ch].mapCc.toNat)
        ∧ answers (0x20 + ch) s.outs[ch].mult.toNat
        ∧ (∀ n, (n, s.outs[ch].moFn) ∈ moFnNumbers →
          answers (0x28 + ch) (n * 256 + s.outs[ch].moChan.toNat)))
    ∧ answers 0x80 (state + bit s.midi.running * 4 + bit s.midi.clkTick * 8
        + bit s.clk.emitClk * 16 + bit s.midi.rxqOvf * 32 + bit s.clk.syncSeen * 64
        + bit (s.phase == .process) * 128)
    ∧ answers 0x81 (s.tickCount.toNat % 2 ^ 16) ∧ answers 0x82 (s.tickCount.toNat / 2 ^ 16)
    ∧ answers 0x83 (s.rngDraws.toNat % 2 ^ 16) ∧ answers 0x84 s.midi.sustain.toNat
    ∧ answers 0x85 s.midi.semitoneMask.toNat ∧ answers 0x86 (s.clk.beatTicks.toNat % 2 ^ 16)
    ∧ answers 0x87 (s.clk.beatTicks.toNat / 2 ^ 16)
    ∧ answers 0x88 (s.midi.rx.length % 2 ^ 8) ∧ answers 0x89 s.midi.ppqnCnt.toNat

/-! ### The whole machine -/

/-- Every step keeps the block's invariant, from every state that has it (R26, R27, R38, R44, R50,
R56, R58, R64 to R68, R72, and the parameters' legality, log 5). -/
def Obligations.EveryStepKeepsWf : Prop :=
  ∀ s t : State, s.Wf → step s = .next t → t.Wf

/-- A block of legal parameters has the invariant after reset, and the default parameters are legal
(70_reset_and_hazards.md R351). Which parameters are legal is the model's deduction (log 5), and so is
that `beat_ticks` resets to `TICKS_PER_MIN div 120` where that is not R351's 8333 (log 10). -/
def Obligations.ResetHasWf : Prop :=
  (∀ cfg : Config, cfg.legal = true → (State.resetWith cfg).Wf) ∧ State.reset.Wf

/-- Under the invariant no stack exceeds 128 entries, so none exceeds `STACK_MAX` (10_state.md R38,
42_midi_in.md R214). -/
def Obligations.StacksHoldAtMost128Notes : Prop :=
  ∀ (s : State) (mch : BitVec 4), s.Wf →
    (s.midi.stackOf mch).length ≤ 128 ∧ (s.midi.stackOf mch).length ≤ s.cfg.stackMax

/-- Only LOAD and SEND write the phase register, and a step never changes the parameters
(10_state.md R32, R21). -/
def Obligations.OnlyLoadAndSendChangePhase : Prop :=
  (∀ (i : Instr) (s t : State), exec i s = .next t → t.phase ≠ s.phase →
    (i = .load ∧ t.phase = .process) ∨ (i = .send ∧ t.phase = .idle))
  ∧ ∀ s t : State, step s = .next t → t.cfg = s.cfg

/-- Every countdown is decremented by LOAD alone (40_tick_phases.md R145): any other command leaves
each as it is or arms it or, for `shuf_cd`, drops it. -/
def Obligations.OnlyLoadDecrementsCountdowns : Prop :=
  ∀ (i : Instr) (s t : State), exec i s = .next t → i ≠ .load →
    (∀ (ch : Nat) (h : ch < ninMax), t.ins[ch].lagCd = s.ins[ch].lagCd
      ∨ (i = .startlag (BitVec.ofNat 4 ch) ∧ holdsNat t.ins[ch].lagCd s.cfg.adcLagTicks))
    ∧ ∀ (ch : Nat) (h : ch < noutMax),
        (t.outs[ch].clockCd = s.outs[ch].clockCd
          ∨ i = .clkout (BitVec.ofNat 4 ch) t.outs[ch].clockCd)
        ∧ (t.outs[ch].noteoffCd = s.outs[ch].noteoffCd
          ∨ (i = .send ∧ t.outs[ch].noteoffCd = s.midi.moHold))
        ∧ (t.outs[ch].shufCd = s.outs[ch].shufCd ∨ (i = .playstop ∧ t.outs[ch].shufCd = 0))

/-- A clock output armed by `CLKOUT ch, n`, where no draw skips it, is high on its DAC for exactly the
`n` SENDs of ticks `t .. t+n-1`, whatever the inputs, the messages drained and the engine do meanwhile,
if no other write to the output intervenes (40_tick_phases.md R146). -/
def Obligations.ClockPulseLastsItsLength : Prop :=
  ∀ (s : State) (ch : Nat) (h : ch < ndacMax) (n : BitVec 16) (later : List Inputs),
    s.phase = .process → s.cfg.legal = true → ch < s.cfg.ndac →
    s.clkSkip = 0 ∨ s.clkSkip.toNat ≤ s.inputs.rng.toNat % 100 → n ≠ 0 →
    ∃ a b, exec (.clkout (BitVec.ofNat 4 ch) n) s = .next a ∧ exec .send a = .next b
      ∧ (emptyTicks b later).dac[ch].code =
          if later.length < n.toNat then BitVec.ofNat 16 s.cfg.gateHighCode else 0
end

