-- ==== Sys2Proof/Laws/State.lean ====
section
/-! SUPPORT. One lemma per field per named update of the state: what the update writes there, or
that it leaves the field alone. -/

namespace Sys2Proof.Machine

variable (s : State)

@[simp] theorem respond_cfg (w : Word) : (s.respond w).cfg = s.cfg := rfl
@[simp] theorem respond_resetAsserted (w : Word) :
    (s.respond w).resetAsserted = s.resetAsserted := rfl
@[simp] theorem respond_pending (w : Word) : (s.respond w).pending = s.pending := rfl
@[simp] theorem respond_inputs (w : Word) : (s.respond w).inputs = s.inputs := rfl
@[simp] theorem respond_ins (w : Word) : (s.respond w).ins = s.ins := rfl
@[simp] theorem respond_outs (w : Word) : (s.respond w).outs = s.outs := rfl
@[simp] theorem respond_phase (w : Word) : (s.respond w).phase = s.phase := rfl
@[simp] theorem respond_tickCount (w : Word) : (s.respond w).tickCount = s.tickCount := rfl
@[simp] theorem respond_midi (w : Word) : (s.respond w).midi = s.midi := rfl
@[simp] theorem respond_clk (w : Word) : (s.respond w).clk = s.clk := rfl
@[simp] theorem respond_clkSkip (w : Word) : (s.respond w).clkSkip = s.clkSkip := rfl
@[simp] theorem respond_rngDraws (w : Word) : (s.respond w).rngDraws = s.rngDraws := rfl
@[simp] theorem respond_fault (w : Word) : (s.respond w).fault = s.fault := rfl
@[simp] theorem respond_resp (w : Word) : (s.respond w).resp = w := rfl
@[simp] theorem respond_dac (w : Word) : (s.respond w).dac = s.dac := rfl
@[simp] theorem respond_midiOut (w : Word) : (s.respond w).midiOut = s.midiOut := rfl

@[simp] theorem raise_cfg (c : FaultCode) (w : Word) : (s.raise c w).cfg = s.cfg := rfl
@[simp] theorem raise_resetAsserted (c : FaultCode) (w : Word) :
    (s.raise c w).resetAsserted = s.resetAsserted := rfl
@[simp] theorem raise_pending (c : FaultCode) (w : Word) : (s.raise c w).pending = s.pending := rfl
@[simp] theorem raise_inputs (c : FaultCode) (w : Word) : (s.raise c w).inputs = s.inputs := rfl
@[simp] theorem raise_ins (c : FaultCode) (w : Word) : (s.raise c w).ins = s.ins := rfl
@[simp] theorem raise_outs (c : FaultCode) (w : Word) : (s.raise c w).outs = s.outs := rfl
@[simp] theorem raise_phase (c : FaultCode) (w : Word) : (s.raise c w).phase = s.phase := rfl
@[simp] theorem raise_tickCount (c : FaultCode) (w : Word) :
    (s.raise c w).tickCount = s.tickCount := rfl
@[simp] theorem raise_midi (c : FaultCode) (w : Word) : (s.raise c w).midi = s.midi := rfl
@[simp] theorem raise_clk (c : FaultCode) (w : Word) : (s.raise c w).clk = s.clk := rfl
@[simp] theorem raise_clkSkip (c : FaultCode) (w : Word) : (s.raise c w).clkSkip = s.clkSkip := rfl
@[simp] theorem raise_rngDraws (c : FaultCode) (w : Word) :
    (s.raise c w).rngDraws = s.rngDraws := rfl
@[simp] theorem raise_fault (c : FaultCode) (w : Word) :
    (s.raise c w).fault = { code := c, word := w } := rfl
@[simp] theorem raise_resp (c : FaultCode) (w : Word) : (s.raise c w).resp = allOnes := rfl
@[simp] theorem raise_dac (c : FaultCode) (w : Word) : (s.raise c w).dac = s.dac := rfl
@[simp] theorem raise_midiOut (c : FaultCode) (w : Word) : (s.raise c w).midiOut = s.midiOut := rfl

@[simp] theorem setIn_cfg (i : BitVec 4) (c : InChannel) : (s.setIn i c).cfg = s.cfg := rfl
@[simp] theorem setIn_resetAsserted (i : BitVec 4) (c : InChannel) :
    (s.setIn i c).resetAsserted = s.resetAsserted := rfl
@[simp] theorem setIn_pending (i : BitVec 4) (c : InChannel) :
    (s.setIn i c).pending = s.pending := rfl
@[simp] theorem setIn_inputs (i : BitVec 4) (c : InChannel) : (s.setIn i c).inputs = s.inputs := rfl
@[simp] theorem setIn_ins (i : BitVec 4) (c : InChannel) :
    (s.setIn i c).ins = s.ins.setIfInBounds i.toNat c := rfl
@[simp] theorem setIn_outs (i : BitVec 4) (c : InChannel) : (s.setIn i c).outs = s.outs := rfl
@[simp] theorem setIn_phase (i : BitVec 4) (c : InChannel) : (s.setIn i c).phase = s.phase := rfl
@[simp] theorem setIn_tickCount (i : BitVec 4) (c : InChannel) :
    (s.setIn i c).tickCount = s.tickCount := rfl
@[simp] theorem setIn_midi (i : BitVec 4) (c : InChannel) : (s.setIn i c).midi = s.midi := rfl
@[simp] theorem setIn_clk (i : BitVec 4) (c : InChannel) : (s.setIn i c).clk = s.clk := rfl
@[simp] theorem setIn_clkSkip (i : BitVec 4) (c : InChannel) :
    (s.setIn i c).clkSkip = s.clkSkip := rfl
@[simp] theorem setIn_rngDraws (i : BitVec 4) (c : InChannel) :
    (s.setIn i c).rngDraws = s.rngDraws := rfl
@[simp] theorem setIn_fault (i : BitVec 4) (c : InChannel) : (s.setIn i c).fault = s.fault := rfl
@[simp] theorem setIn_resp (i : BitVec 4) (c : InChannel) : (s.setIn i c).resp = s.resp := rfl
@[simp] theorem setIn_dac (i : BitVec 4) (c : InChannel) : (s.setIn i c).dac = s.dac := rfl
@[simp] theorem setIn_midiOut (i : BitVec 4) (c : InChannel) :
    (s.setIn i c).midiOut = s.midiOut := rfl

@[simp] theorem setOut_cfg (i : Nat) (c : OutChannel) : (s.setOut i c).cfg = s.cfg := rfl
@[simp] theorem setOut_resetAsserted (i : Nat) (c : OutChannel) :
    (s.setOut i c).resetAsserted = s.resetAsserted := rfl
@[simp] theorem setOut_pending (i : Nat) (c : OutChannel) :
    (s.setOut i c).pending = s.pending := rfl
@[simp] theorem setOut_inputs (i : Nat) (c : OutChannel) : (s.setOut i c).inputs = s.inputs := rfl
@[simp] theorem setOut_ins (i : Nat) (c : OutChannel) : (s.setOut i c).ins = s.ins := rfl
@[simp] theorem setOut_outs (i : Nat) (c : OutChannel) :
    (s.setOut i c).outs = s.outs.setIfInBounds i c := rfl
@[simp] theorem setOut_phase (i : Nat) (c : OutChannel) : (s.setOut i c).phase = s.phase := rfl
@[simp] theorem setOut_tickCount (i : Nat) (c : OutChannel) :
    (s.setOut i c).tickCount = s.tickCount := rfl
@[simp] theorem setOut_midi (i : Nat) (c : OutChannel) : (s.setOut i c).midi = s.midi := rfl
@[simp] theorem setOut_clk (i : Nat) (c : OutChannel) : (s.setOut i c).clk = s.clk := rfl
@[simp] theorem setOut_clkSkip (i : Nat) (c : OutChannel) :
    (s.setOut i c).clkSkip = s.clkSkip := rfl
@[simp] theorem setOut_rngDraws (i : Nat) (c : OutChannel) :
    (s.setOut i c).rngDraws = s.rngDraws := rfl
@[simp] theorem setOut_fault (i : Nat) (c : OutChannel) : (s.setOut i c).fault = s.fault := rfl
@[simp] theorem setOut_resp (i : Nat) (c : OutChannel) : (s.setOut i c).resp = s.resp := rfl
@[simp] theorem setOut_dac (i : Nat) (c : OutChannel) : (s.setOut i c).dac = s.dac := rfl
@[simp] theorem setOut_midiOut (i : Nat) (c : OutChannel) :
    (s.setOut i c).midiOut = s.midiOut := rfl

@[simp] theorem forOutputs_cfg (f : OutChannel → OutChannel) : (s.forOutputs f).cfg = s.cfg := rfl
@[simp] theorem forOutputs_resetAsserted (f : OutChannel → OutChannel) :
    (s.forOutputs f).resetAsserted = s.resetAsserted := rfl
@[simp] theorem forOutputs_pending (f : OutChannel → OutChannel) :
    (s.forOutputs f).pending = s.pending := rfl
@[simp] theorem forOutputs_inputs (f : OutChannel → OutChannel) :
    (s.forOutputs f).inputs = s.inputs := rfl
@[simp] theorem forOutputs_ins (f : OutChannel → OutChannel) : (s.forOutputs f).ins = s.ins := rfl
@[simp] theorem forOutputs_outs (f : OutChannel → OutChannel) :
    (s.forOutputs f).outs = mapLive s.cfg.nout f s.outs := rfl
@[simp] theorem forOutputs_phase (f : OutChannel → OutChannel) :
    (s.forOutputs f).phase = s.phase := rfl
@[simp] theorem forOutputs_tickCount (f : OutChannel → OutChannel) :
    (s.forOutputs f).tickCount = s.tickCount := rfl
@[simp] theorem forOutputs_midi (f : OutChannel → OutChannel) :
    (s.forOutputs f).midi = s.midi := rfl
@[simp] theorem forOutputs_clk (f : OutChannel → OutChannel) : (s.forOutputs f).clk = s.clk := rfl
@[simp] theorem forOutputs_clkSkip (f : OutChannel → OutChannel) :
    (s.forOutputs f).clkSkip = s.clkSkip := rfl
@[simp] theorem forOutputs_rngDraws (f : OutChannel → OutChannel) :
    (s.forOutputs f).rngDraws = s.rngDraws := rfl
@[simp] theorem forOutputs_fault (f : OutChannel → OutChannel) :
    (s.forOutputs f).fault = s.fault := rfl
@[simp] theorem forOutputs_resp (f : OutChannel → OutChannel) :
    (s.forOutputs f).resp = s.resp := rfl
@[simp] theorem forOutputs_dac (f : OutChannel → OutChannel) : (s.forOutputs f).dac = s.dac := rfl
@[simp] theorem forOutputs_midiOut (f : OutChannel → OutChannel) :
    (s.forOutputs f).midiOut = s.midiOut := rfl

@[simp] theorem forMatching_cfg (m : BitVec 4) (f : OutChannel → OutChannel) :
    (s.forMatching m f).cfg = s.cfg := rfl
@[simp] theorem forMatching_resetAsserted (m : BitVec 4) (f : OutChannel → OutChannel) :
    (s.forMatching m f).resetAsserted = s.resetAsserted := rfl
@[simp] theorem forMatching_pending (m : BitVec 4) (f : OutChannel → OutChannel) :
    (s.forMatching m f).pending = s.pending := rfl
@[simp] theorem forMatching_inputs (m : BitVec 4) (f : OutChannel → OutChannel) :
    (s.forMatching m f).inputs = s.inputs := rfl
@[simp] theorem forMatching_ins (m : BitVec 4) (f : OutChannel → OutChannel) :
    (s.forMatching m f).ins = s.ins := rfl
@[simp] theorem forMatching_outs (m : BitVec 4) (f : OutChannel → OutChannel) :
    (s.forMatching m f).outs = mapLive s.cfg.nout (fun c => if c.mapMch = m then f c else c) s.outs := rfl
@[simp] theorem forMatching_phase (m : BitVec 4) (f : OutChannel → OutChannel) :
    (s.forMatching m f).phase = s.phase := rfl
@[simp] theorem forMatching_tickCount (m : BitVec 4) (f : OutChannel → OutChannel) :
    (s.forMatching m f).tickCount = s.tickCount := rfl
@[simp] theorem forMatching_midi (m : BitVec 4) (f : OutChannel → OutChannel) :
    (s.forMatching m f).midi = s.midi := rfl
@[simp] theorem forMatching_clk (m : BitVec 4) (f : OutChannel → OutChannel) :
    (s.forMatching m f).clk = s.clk := rfl
@[simp] theorem forMatching_clkSkip (m : BitVec 4) (f : OutChannel → OutChannel) :
    (s.forMatching m f).clkSkip = s.clkSkip := rfl
@[simp] theorem forMatching_rngDraws (m : BitVec 4) (f : OutChannel → OutChannel) :
    (s.forMatching m f).rngDraws = s.rngDraws := rfl
@[simp] theorem forMatching_fault (m : BitVec 4) (f : OutChannel → OutChannel) :
    (s.forMatching m f).fault = s.fault := rfl
@[simp] theorem forMatching_resp (m : BitVec 4) (f : OutChannel → OutChannel) :
    (s.forMatching m f).resp = s.resp := rfl
@[simp] theorem forMatching_dac (m : BitVec 4) (f : OutChannel → OutChannel) :
    (s.forMatching m f).dac = s.dac := rfl
@[simp] theorem forMatching_midiOut (m : BitVec 4) (f : OutChannel → OutChannel) :
    (s.forMatching m f).midiOut = s.midiOut := rfl

@[simp] theorem emit_cfg (l : List OutMsg) : (s.emit l).cfg = s.cfg := rfl
@[simp] theorem emit_resetAsserted (l : List OutMsg) :
    (s.emit l).resetAsserted = s.resetAsserted := rfl
@[simp] theorem emit_pending (l : List OutMsg) : (s.emit l).pending = s.pending := rfl
@[simp] theorem emit_inputs (l : List OutMsg) : (s.emit l).inputs = s.inputs := rfl
@[simp] theorem emit_ins (l : List OutMsg) : (s.emit l).ins = s.ins := rfl
@[simp] theorem emit_outs (l : List OutMsg) : (s.emit l).outs = s.outs := rfl
@[simp] theorem emit_phase (l : List OutMsg) : (s.emit l).phase = s.phase := rfl
@[simp] theorem emit_tickCount (l : List OutMsg) : (s.emit l).tickCount = s.tickCount := rfl
@[simp] theorem emit_midi (l : List OutMsg) :
    (s.emit l).midi = { s.midi with tx := s.midi.tx ++ l } := rfl
@[simp] theorem emit_clk (l : List OutMsg) : (s.emit l).clk = s.clk := rfl
@[simp] theorem emit_clkSkip (l : List OutMsg) : (s.emit l).clkSkip = s.clkSkip := rfl
@[simp] theorem emit_rngDraws (l : List OutMsg) : (s.emit l).rngDraws = s.rngDraws := rfl
@[simp] theorem emit_fault (l : List OutMsg) : (s.emit l).fault = s.fault := rfl
@[simp] theorem emit_resp (l : List OutMsg) : (s.emit l).resp = s.resp := rfl
@[simp] theorem emit_dac (l : List OutMsg) : (s.emit l).dac = s.dac := rfl
@[simp] theorem emit_midiOut (l : List OutMsg) : (s.emit l).midiOut = s.midiOut := rfl

@[simp] theorem drawn_cfg : (s.drawn).cfg = s.cfg := rfl
@[simp] theorem drawn_resetAsserted : (s.drawn).resetAsserted = s.resetAsserted := rfl
@[simp] theorem drawn_pending : (s.drawn).pending = s.pending := rfl
@[simp] theorem drawn_inputs : (s.drawn).inputs = s.inputs := rfl
@[simp] theorem drawn_ins : (s.drawn).ins = s.ins := rfl
@[simp] theorem drawn_outs : (s.drawn).outs = s.outs := rfl
@[simp] theorem drawn_phase : (s.drawn).phase = s.phase := rfl
@[simp] theorem drawn_tickCount : (s.drawn).tickCount = s.tickCount := rfl
@[simp] theorem drawn_midi : (s.drawn).midi = s.midi := rfl
@[simp] theorem drawn_clk : (s.drawn).clk = s.clk := rfl
@[simp] theorem drawn_clkSkip : (s.drawn).clkSkip = s.clkSkip := rfl
@[simp] theorem drawn_rngDraws : (s.drawn).rngDraws = s.rngDraws + 1 := rfl
@[simp] theorem drawn_fault : (s.drawn).fault = s.fault := rfl
@[simp] theorem drawn_resp : (s.drawn).resp = s.resp := rfl
@[simp] theorem drawn_dac : (s.drawn).dac = s.dac := rfl
@[simp] theorem drawn_midiOut : (s.drawn).midiOut = s.midiOut := rfl

@[simp] theorem setClkState_cfg (p : ClkState) : (s.setClkState p).cfg = s.cfg := rfl
@[simp] theorem setClkState_resetAsserted (p : ClkState) :
    (s.setClkState p).resetAsserted = s.resetAsserted := rfl
@[simp] theorem setClkState_pending (p : ClkState) : (s.setClkState p).pending = s.pending := rfl
@[simp] theorem setClkState_inputs (p : ClkState) : (s.setClkState p).inputs = s.inputs := rfl
@[simp] theorem setClkState_ins (p : ClkState) : (s.setClkState p).ins = s.ins := rfl
@[simp] theorem setClkState_outs (p : ClkState) : (s.setClkState p).outs = s.outs := rfl
@[simp] theorem setClkState_phase (p : ClkState) : (s.setClkState p).phase = s.phase := rfl
@[simp] theorem setClkState_tickCount (p : ClkState) :
    (s.setClkState p).tickCount = s.tickCount := rfl
@[simp] theorem setClkState_midi (p : ClkState) : (s.setClkState p).midi = s.midi := rfl
@[simp] theorem setClkState_clk (p : ClkState) :
    (s.setClkState p).clk = { s.clk with state := p } := rfl
@[simp] theorem setClkState_clkSkip (p : ClkState) : (s.setClkState p).clkSkip = s.clkSkip := rfl
@[simp] theorem setClkState_rngDraws (p : ClkState) : (s.setClkState p).rngDraws = s.rngDraws := rfl
@[simp] theorem setClkState_fault (p : ClkState) : (s.setClkState p).fault = s.fault := rfl
@[simp] theorem setClkState_resp (p : ClkState) : (s.setClkState p).resp = s.resp := rfl
@[simp] theorem setClkState_dac (p : ClkState) : (s.setClkState p).dac = s.dac := rfl
@[simp] theorem setClkState_midiOut (p : ClkState) : (s.setClkState p).midiOut = s.midiOut := rfl

@[simp] theorem startActions_cfg : (s.startActions).cfg = s.cfg := rfl
@[simp] theorem startActions_resetAsserted : (s.startActions).resetAsserted = s.resetAsserted := rfl
@[simp] theorem startActions_pending : (s.startActions).pending = s.pending := rfl
@[simp] theorem startActions_inputs : (s.startActions).inputs = s.inputs := rfl
@[simp] theorem startActions_ins : (s.startActions).ins = s.ins := rfl
@[simp] theorem startActions_outs :
    (s.startActions).outs = mapLive s.cfg.nout (fun c => { c with pulsePar := false, shufCd := 0 }) s.outs := rfl
@[simp] theorem startActions_phase : (s.startActions).phase = s.phase := rfl
@[simp] theorem startActions_tickCount : (s.startActions).tickCount = s.tickCount := rfl
@[simp] theorem startActions_midi : (s.startActions).midi = s.midi := rfl
@[simp] theorem startActions_clk : (s.startActions).clk = s.clk.started := rfl
@[simp] theorem startActions_clkSkip : (s.startActions).clkSkip = s.clkSkip := rfl
@[simp] theorem startActions_rngDraws : (s.startActions).rngDraws = s.rngDraws := rfl
@[simp] theorem startActions_fault : (s.startActions).fault = s.fault := rfl
@[simp] theorem startActions_resp : (s.startActions).resp = s.resp := rfl
@[simp] theorem startActions_dac : (s.startActions).dac = s.dac := rfl
@[simp] theorem startActions_midiOut : (s.startActions).midiOut = s.midiOut := rfl

@[simp] theorem stopActions_cfg : (s.stopActions).cfg = s.cfg := rfl
@[simp] theorem stopActions_resetAsserted : (s.stopActions).resetAsserted = s.resetAsserted := rfl
@[simp] theorem stopActions_pending : (s.stopActions).pending = s.pending := rfl
@[simp] theorem stopActions_inputs : (s.stopActions).inputs = s.inputs := rfl
@[simp] theorem stopActions_ins : (s.stopActions).ins = s.ins := rfl
@[simp] theorem stopActions_outs :
    (s.stopActions).outs = mapLive s.cfg.nout (fun c => { c with shufCd := 0 }) s.outs := rfl
@[simp] theorem stopActions_phase : (s.stopActions).phase = s.phase := rfl
@[simp] theorem stopActions_tickCount : (s.stopActions).tickCount = s.tickCount := rfl
@[simp] theorem stopActions_midi : (s.stopActions).midi = s.midi := rfl
@[simp] theorem stopActions_clk : (s.stopActions).clk = { s.clk with syncSeen := false } := rfl
@[simp] theorem stopActions_clkSkip : (s.stopActions).clkSkip = s.clkSkip := rfl
@[simp] theorem stopActions_rngDraws : (s.stopActions).rngDraws = s.rngDraws := rfl
@[simp] theorem stopActions_fault : (s.stopActions).fault = s.fault := rfl
@[simp] theorem stopActions_resp : (s.stopActions).resp = s.resp := rfl
@[simp] theorem stopActions_dac : (s.stopActions).dac = s.dac := rfl
@[simp] theorem stopActions_midiOut : (s.stopActions).midiOut = s.midiOut := rfl

@[simp] theorem beginTick_cfg : (s.beginTick).cfg = s.cfg := rfl
@[simp] theorem beginTick_resetAsserted : (s.beginTick).resetAsserted = s.resetAsserted := rfl
@[simp] theorem beginTick_pending : (s.beginTick).pending = s.pending := rfl
@[simp] theorem beginTick_inputs : (s.beginTick).inputs = s.inputs := rfl
@[simp] theorem beginTick_ins : (s.beginTick).ins = s.ins := rfl
@[simp] theorem beginTick_outs : (s.beginTick).outs = s.outs := rfl
@[simp] theorem beginTick_phase : (s.beginTick).phase = .process := rfl
@[simp] theorem beginTick_tickCount : (s.beginTick).tickCount = s.tickCount + 1 := rfl
@[simp] theorem beginTick_midi : (s.beginTick).midi = s.midi := rfl
@[simp] theorem beginTick_clk : (s.beginTick).clk = s.clk := rfl
@[simp] theorem beginTick_clkSkip : (s.beginTick).clkSkip = s.clkSkip := rfl
@[simp] theorem beginTick_rngDraws : (s.beginTick).rngDraws = s.rngDraws := rfl
@[simp] theorem beginTick_fault : (s.beginTick).fault = s.fault := rfl
@[simp] theorem beginTick_resp : (s.beginTick).resp = s.resp := rfl
@[simp] theorem beginTick_dac : (s.beginTick).dac = s.dac := rfl
@[simp] theorem beginTick_midiOut : (s.beginTick).midiOut = s.midiOut := rfl

@[simp] theorem clearOneTick_cfg : (s.clearOneTick).cfg = s.cfg := rfl
@[simp] theorem clearOneTick_resetAsserted : (s.clearOneTick).resetAsserted = s.resetAsserted := rfl
@[simp] theorem clearOneTick_pending : (s.clearOneTick).pending = s.pending := rfl
@[simp] theorem clearOneTick_inputs : (s.clearOneTick).inputs = s.inputs := rfl
@[simp] theorem clearOneTick_ins : (s.clearOneTick).ins = s.ins := rfl
@[simp] theorem clearOneTick_outs :
    (s.clearOneTick).outs = mapLive s.cfg.nout OutChannel.clearFlags s.outs := rfl
@[simp] theorem clearOneTick_phase : (s.clearOneTick).phase = s.phase := rfl
@[simp] theorem clearOneTick_tickCount : (s.clearOneTick).tickCount = s.tickCount := rfl
@[simp] theorem clearOneTick_midi : (s.clearOneTick).midi = { s.midi with clkTick := false } := rfl
@[simp] theorem clearOneTick_clk : (s.clearOneTick).clk = s.clk := rfl
@[simp] theorem clearOneTick_clkSkip : (s.clearOneTick).clkSkip = s.clkSkip := rfl
@[simp] theorem clearOneTick_rngDraws : (s.clearOneTick).rngDraws = s.rngDraws := rfl
@[simp] theorem clearOneTick_fault : (s.clearOneTick).fault = s.fault := rfl
@[simp] theorem clearOneTick_resp : (s.clearOneTick).resp = s.resp := rfl
@[simp] theorem clearOneTick_dac : (s.clearOneTick).dac = s.dac := rfl
@[simp] theorem clearOneTick_midiOut : (s.clearOneTick).midiOut = s.midiOut := rfl

@[simp] theorem countdowns_cfg : (s.countdowns).cfg = s.cfg := rfl
@[simp] theorem countdowns_resetAsserted : (s.countdowns).resetAsserted = s.resetAsserted := rfl
@[simp] theorem countdowns_pending : (s.countdowns).pending = s.pending := rfl
@[simp] theorem countdowns_inputs : (s.countdowns).inputs = s.inputs := rfl
@[simp] theorem countdowns_ins :
    (s.countdowns).ins = mapLive s.cfg.nin InChannel.lagDown s.ins := rfl
@[simp] theorem countdowns_outs :
    (s.countdowns).outs = mapLive s.cfg.nout (fun c => c.clockDown.noteoffDown) s.outs := rfl
@[simp] theorem countdowns_phase : (s.countdowns).phase = s.phase := rfl
@[simp] theorem countdowns_tickCount : (s.countdowns).tickCount = s.tickCount := rfl
@[simp] theorem countdowns_midi :
    (s.countdowns).midi = { s.midi with tx := s.midi.tx ++ s.releaseMsgs } := rfl
@[simp] theorem countdowns_clk : (s.countdowns).clk = s.clk := rfl
@[simp] theorem countdowns_clkSkip : (s.countdowns).clkSkip = s.clkSkip := rfl
@[simp] theorem countdowns_rngDraws : (s.countdowns).rngDraws = s.rngDraws := rfl
@[simp] theorem countdowns_fault : (s.countdowns).fault = s.fault := rfl
@[simp] theorem countdowns_resp : (s.countdowns).resp = s.resp := rfl
@[simp] theorem countdowns_dac : (s.countdowns).dac = s.dac := rfl
@[simp] theorem countdowns_midiOut : (s.countdowns).midiOut = s.midiOut := rfl

@[simp] theorem condition_cfg : (s.condition).cfg = s.cfg := rfl
@[simp] theorem condition_resetAsserted : (s.condition).resetAsserted = s.resetAsserted := rfl
@[simp] theorem condition_pending : (s.condition).pending = s.pending := rfl
@[simp] theorem condition_inputs : (s.condition).inputs = s.inputs := rfl
@[simp] theorem condition_outs : (s.condition).outs = s.outs := rfl
@[simp] theorem condition_phase : (s.condition).phase = s.phase := rfl
@[simp] theorem condition_tickCount : (s.condition).tickCount = s.tickCount := rfl
@[simp] theorem condition_midi : (s.condition).midi = s.midi := rfl
@[simp] theorem condition_clk : (s.condition).clk = s.clk := rfl
@[simp] theorem condition_clkSkip : (s.condition).clkSkip = s.clkSkip := rfl
@[simp] theorem condition_rngDraws : (s.condition).rngDraws = s.rngDraws := rfl
@[simp] theorem condition_fault : (s.condition).fault = s.fault := rfl
@[simp] theorem condition_resp : (s.condition).resp = s.resp := rfl
@[simp] theorem condition_dac : (s.condition).dac = s.dac := rfl
@[simp] theorem condition_midiOut : (s.condition).midiOut = s.midiOut := rfl

@[simp] theorem driveDacs_cfg : (s.driveDacs).cfg = s.cfg := rfl
@[simp] theorem driveDacs_resetAsserted : (s.driveDacs).resetAsserted = s.resetAsserted := rfl
@[simp] theorem driveDacs_pending : (s.driveDacs).pending = s.pending := rfl
@[simp] theorem driveDacs_inputs : (s.driveDacs).inputs = s.inputs := rfl
@[simp] theorem driveDacs_ins : (s.driveDacs).ins = s.ins := rfl
@[simp] theorem driveDacs_outs : (s.driveDacs).outs = s.outs := rfl
@[simp] theorem driveDacs_phase : (s.driveDacs).phase = s.phase := rfl
@[simp] theorem driveDacs_tickCount : (s.driveDacs).tickCount = s.tickCount := rfl
@[simp] theorem driveDacs_midi : (s.driveDacs).midi = s.midi := rfl
@[simp] theorem driveDacs_clk : (s.driveDacs).clk = s.clk := rfl
@[simp] theorem driveDacs_clkSkip : (s.driveDacs).clkSkip = s.clkSkip := rfl
@[simp] theorem driveDacs_rngDraws : (s.driveDacs).rngDraws = s.rngDraws := rfl
@[simp] theorem driveDacs_fault : (s.driveDacs).fault = s.fault := rfl
@[simp] theorem driveDacs_resp : (s.driveDacs).resp = s.resp := rfl
@[simp] theorem driveDacs_midiOut : (s.driveDacs).midiOut = s.midiOut := rfl

@[simp] theorem driveMidi_cfg : (s.driveMidi).cfg = s.cfg := rfl
@[simp] theorem driveMidi_resetAsserted : (s.driveMidi).resetAsserted = s.resetAsserted := rfl
@[simp] theorem driveMidi_pending : (s.driveMidi).pending = s.pending := rfl
@[simp] theorem driveMidi_inputs : (s.driveMidi).inputs = s.inputs := rfl
@[simp] theorem driveMidi_ins : (s.driveMidi).ins = s.ins := rfl
@[simp] theorem driveMidi_outs : (s.driveMidi).outs = s.outs := rfl
@[simp] theorem driveMidi_phase : (s.driveMidi).phase = s.phase := rfl
@[simp] theorem driveMidi_tickCount : (s.driveMidi).tickCount = s.tickCount := rfl
@[simp] theorem driveMidi_midi : (s.driveMidi).midi = { s.midi with tx := [] } := rfl
@[simp] theorem driveMidi_clk : (s.driveMidi).clk = s.clk := rfl
@[simp] theorem driveMidi_clkSkip : (s.driveMidi).clkSkip = s.clkSkip := rfl
@[simp] theorem driveMidi_rngDraws : (s.driveMidi).rngDraws = s.rngDraws := rfl
@[simp] theorem driveMidi_fault : (s.driveMidi).fault = s.fault := rfl
@[simp] theorem driveMidi_resp : (s.driveMidi).resp = s.resp := rfl
@[simp] theorem driveMidi_dac : (s.driveMidi).dac = s.dac := rfl
@[simp] theorem driveMidi_midiOut : (s.driveMidi).midiOut = s.midi.tx := rfl

@[simp] theorem endTick_cfg : (s.endTick).cfg = s.cfg := rfl
@[simp] theorem endTick_resetAsserted : (s.endTick).resetAsserted = s.resetAsserted := rfl
@[simp] theorem endTick_pending : (s.endTick).pending = s.pending := rfl
@[simp] theorem endTick_inputs : (s.endTick).inputs = s.inputs := rfl
@[simp] theorem endTick_ins : (s.endTick).ins = s.ins := rfl
@[simp] theorem endTick_outs :
    (s.endTick).outs = mapLive s.cfg.nout (fun c => { c with prevOut := c.out }) s.outs := rfl
@[simp] theorem endTick_phase : (s.endTick).phase = .idle := rfl
@[simp] theorem endTick_tickCount : (s.endTick).tickCount = s.tickCount := rfl
@[simp] theorem endTick_midi : (s.endTick).midi = s.midi := rfl
@[simp] theorem endTick_clk : (s.endTick).clk = s.clk := rfl
@[simp] theorem endTick_clkSkip : (s.endTick).clkSkip = s.clkSkip := rfl
@[simp] theorem endTick_rngDraws : (s.endTick).rngDraws = s.rngDraws := rfl
@[simp] theorem endTick_fault : (s.endTick).fault = s.fault := rfl
@[simp] theorem endTick_resp : (s.endTick).resp = s.resp := rfl
@[simp] theorem endTick_dac : (s.endTick).dac = s.dac := rfl
@[simp] theorem endTick_midiOut : (s.endTick).midiOut = s.midiOut := rfl

@[simp] theorem notePath_cfg : (s.notePath).cfg = s.cfg := rfl
@[simp] theorem notePath_resetAsserted : (s.notePath).resetAsserted = s.resetAsserted := rfl
@[simp] theorem notePath_pending : (s.notePath).pending = s.pending := rfl
@[simp] theorem notePath_inputs : (s.notePath).inputs = s.inputs := rfl
@[simp] theorem notePath_ins : (s.notePath).ins = s.ins := rfl
@[simp] theorem notePath_phase : (s.notePath).phase = s.phase := rfl
@[simp] theorem notePath_tickCount : (s.notePath).tickCount = s.tickCount := rfl
@[simp] theorem notePath_clk : (s.notePath).clk = s.clk := rfl
@[simp] theorem notePath_clkSkip : (s.notePath).clkSkip = s.clkSkip := rfl
@[simp] theorem notePath_rngDraws : (s.notePath).rngDraws = s.rngDraws := rfl
@[simp] theorem notePath_fault : (s.notePath).fault = s.fault := rfl
@[simp] theorem notePath_resp : (s.notePath).resp = s.resp := rfl
@[simp] theorem notePath_dac : (s.notePath).dac = s.dac := rfl
@[simp] theorem notePath_midiOut : (s.notePath).midiOut = s.midiOut := rfl

@[simp] theorem enqueue_cfg (m : MidiMsg) : (s.enqueue m).cfg = s.cfg := rfl
@[simp] theorem enqueue_resetAsserted (m : MidiMsg) : (s.enqueue m).resetAsserted = s.resetAsserted := rfl
@[simp] theorem enqueue_pending (m : MidiMsg) : (s.enqueue m).pending = s.pending := rfl
@[simp] theorem enqueue_inputs (m : MidiMsg) : (s.enqueue m).inputs = s.inputs := rfl
@[simp] theorem enqueue_ins (m : MidiMsg) : (s.enqueue m).ins = s.ins := rfl
@[simp] theorem enqueue_outs (m : MidiMsg) : (s.enqueue m).outs = s.outs := rfl
@[simp] theorem enqueue_phase (m : MidiMsg) : (s.enqueue m).phase = s.phase := rfl
@[simp] theorem enqueue_tickCount (m : MidiMsg) : (s.enqueue m).tickCount = s.tickCount := rfl
@[simp] theorem enqueue_clk (m : MidiMsg) : (s.enqueue m).clk = s.clk := rfl
@[simp] theorem enqueue_clkSkip (m : MidiMsg) : (s.enqueue m).clkSkip = s.clkSkip := rfl
@[simp] theorem enqueue_rngDraws (m : MidiMsg) : (s.enqueue m).rngDraws = s.rngDraws := rfl
@[simp] theorem enqueue_fault (m : MidiMsg) : (s.enqueue m).fault = s.fault := rfl
@[simp] theorem enqueue_dac (m : MidiMsg) : (s.enqueue m).dac = s.dac := rfl
@[simp] theorem enqueue_midiOut (m : MidiMsg) : (s.enqueue m).midiOut = s.midiOut := rfl
@[simp] theorem enqueue_resp (m : MidiMsg) : (s.enqueue m).resp = 0 := rfl

@[simp] theorem setStack_get (m : MidiState) (mch : BitVec 4) (st : List NoteEntry) :
    (m.setStack mch st).stackOf mch = st := by
  simp [MidiState.setStack, MidiState.stackOf]

theorem setStack_get_ne (m : MidiState) {a b : BitVec 4} (h : a ≠ b) (st : List NoteEntry) :
    (m.setStack a st).stackOf b = m.stackOf b := by
  have : a.toNat ≠ b.toNat := fun e => h (BitVec.eq_of_toNat_eq e)
  simp [MidiState.setStack, MidiState.stackOf, Vector.getElem_set_ne, this]

end Sys2Proof.Machine
end

