-- ==== Sys2Proof/Laws/Lanes.lean ====
section
/-! SUPPORT. What the lane operations do: each says once all it can do. -/

namespace Sys2Proof.Machine

@[simp] theorem mapLive_get {α : Type} {slots : Nat} (n : Nat) (f : α → α) (v : Vector α slots)
    (i : Nat) (h : i < slots) : (mapLive n f v)[i] = if i < n then f v[i] else v[i] := by
  simp [mapLive]

/-- Two passes over the lanes are one. -/
theorem mapLive_mapLive (n : Nat) (f g : OutChannel → OutChannel) (v : Vector OutChannel noutMax) :
    mapLive n g (mapLive n f v) = mapLive n (fun c => g (f c)) v := by
  ext i h
  by_cases hi : i < n <;> simp [hi]

/-- A pass that changes nothing. -/
theorem mapLive_id (n : Nat) (v : Vector OutChannel noutMax) : mapLive n (fun c => c) v = v := by
  ext i h
  simp

/-- A pass leaves alone whatever of a lane its function leaves alone. -/
theorem mapLive_keeps {α : Type} (p : OutChannel → α) (n : Nat) (f : OutChannel → OutChannel)
    (hf : ∀ c, p (f c) = p c) (v : Vector OutChannel noutMax) (i : Nat) (h : i < noutMax) :
    p (mapLive n f v)[i] = p v[i] := by
  rw [mapLive_get]; split <;> simp [hf]

@[simp] theorem condition_get (s : State) (i : Nat) (h : i < ninMax) :
    s.condition.ins[i] = if i < s.cfg.nin then
      s.ins[i].conditioned s.cfg s.inputs.gateIn[i] s.inputs.adc[i] else s.ins[i] := by
  simp [State.condition]

@[simp] theorem driveDacs_get (s : State) (i : Nat) (h : i < ndacMax) :
    s.driveDacs.dac[i] = if i < s.cfg.ndac then
      { code := (s.outs[i]'(Nat.lt_trans h (by decide))).out, octave := s.cfg.dacOctave }
      else s.dac[i] := by
  simp [State.driveDacs]

/-- The input lane a number selects. -/
theorem inLaneAt_eq (s : State) (n : Nat) (h : n < ninMax) (hn : n < s.cfg.nin) :
    s.inLaneAt n = some s.ins[n] := by
  simp [State.inLaneAt, h, hn]

/-- A number beyond the input lanes selects none. -/
theorem inLaneAt_none (s : State) (n : Nat) (h : s.cfg.nin ≤ n) : s.inLaneAt n = none := by
  simp [State.inLaneAt, h]

/-- The input lane an index selects. -/
theorem inLane_eq (s : State) (idx : BitVec 4) (h : idx.toNat < ninMax)
    (hn : idx.toNat < s.cfg.nin) : s.inLane idx = some s.ins[idx.toNat] :=
  inLaneAt_eq s idx.toNat h hn

/-- An index beyond the input lanes selects none. -/
theorem inLane_none (s : State) (idx : BitVec 4) (h : s.cfg.nin ≤ idx.toNat) :
    s.inLane idx = none :=
  inLaneAt_none s idx.toNat h

/-- The output lane an index selects. -/
theorem outLane_eq (s : State) (idx : BitVec 4) (h : idx.toNat < noutMax)
    (hn : idx.toNat < s.cfg.nout) : s.outLane idx = some s.outs[idx.toNat] := by
  simp [State.outLane, h, hn]

/-- An index beyond the output lanes selects none. -/
theorem outLane_none (s : State) (idx : BitVec 4) (h : s.cfg.nout ≤ idx.toNat) :
    s.outLane idx = none := by
  simp [State.outLane, h]

/-- Everything `indexed` can answer. -/
theorem indexed_cases {α : Type} {i : Instr} {s t : State} {sel : Option α} {run : α → State}
    (h : indexed i s sel run = .next t) :
    (s.phase = .idle ∧ t = s.raise .badOrder (encode i))
    ∨ (s.phase = .process ∧ sel = none ∧ t = s.raise .badChannel (encode i))
    ∨ (s.phase = .process ∧ ∃ x, sel = some x ∧ t = run x) := by
  unfold indexed at h
  split at h <;> simp_all

/-- Everything `inProcess` can answer. -/
theorem inProcess_cases {i : Instr} {s t u : State} (h : inProcess i s t = .next u) :
    (s.phase = .idle ∧ u = s.raise .badOrder (encode i)) ∨ (s.phase = .process ∧ u = t) := by
  unfold inProcess at h
  split at h <;> simp_all

end Sys2Proof.Machine
end

