-- ==== Sys2Proof/Laws/MidiIn.lean ====
section
/-! SUPPORT. What the dispatch of inbound messages can change, said once: `DrainFrame` for one
message (`processMidi_frame`) and for a whole queue (`drain_frame`). -/

namespace Sys2Proof.Machine

/-- What a dispatch rule leaves alone in an output lane (42_midi_in.md R194 to R213,
44_clock_engine.md R267, R268). -/
structure LaneFrame (c d : OutChannel) : Prop where
  out : d.out = c.out
  prevOut : d.prevOut = c.prevOut
  clockCd : d.clockCd = c.clockCd
  loop : d.loop = c.loop
  mapMch : d.mapMch = c.mapMch
  mapFn : d.mapFn = c.mapFn
  moFn : d.moFn = c.moFn
  moChan : d.moChan = c.moChan
  noteoffCd : d.noteoffCd = c.noteoffCd
  sndValid : d.sndValid = c.sndValid
  sndNote : d.sndNote = c.sndNote
  sndChan : d.sndChan = c.sndChan
  mult : d.mult = c.mult
  tock : d.tock = c.tock

theorem LaneFrame.refl (c : OutChannel) : LaneFrame c c := by constructor <;> rfl

theorem LaneFrame.trans {a b c : OutChannel} (h : LaneFrame a b) (k : LaneFrame b c) :
    LaneFrame a c := by
  constructor
  · exact k.out.trans h.out
  · exact k.prevOut.trans h.prevOut
  · exact k.clockCd.trans h.clockCd
  · exact k.loop.trans h.loop
  · exact k.mapMch.trans h.mapMch
  · exact k.mapFn.trans h.mapFn
  · exact k.moFn.trans h.moFn
  · exact k.moChan.trans h.moChan
  · exact k.noteoffCd.trans h.noteoffCd
  · exact k.sndValid.trans h.sndValid
  · exact k.sndNote.trans h.sndNote
  · exact k.sndChan.trans h.sndChan
  · exact k.mult.trans h.mult
  · exact k.tock.trans h.tock

/-- What the dispatch of a message leaves alone. -/
structure DrainFrame (s t : State) : Prop where
  cfg : t.cfg = s.cfg
  resetAsserted : t.resetAsserted = s.resetAsserted
  pending : t.pending = s.pending
  inputs : t.inputs = s.inputs
  ins : t.ins = s.ins
  phase : t.phase = s.phase
  tickCount : t.tickCount = s.tickCount
  clkSkip : t.clkSkip = s.clkSkip
  rngDraws : t.rngDraws = s.rngDraws
  fault : t.fault = s.fault
  resp : t.resp = s.resp
  dac : t.dac = s.dac
  midiOut : t.midiOut = s.midiOut
  clkDiv : t.midi.clkDiv = s.midi.clkDiv
  autoOut : t.midi.autoOut = s.midi.autoOut
  moHold : t.midi.moHold = s.midi.moHold
  rx : t.midi.rx = s.midi.rx
  rxqOvf : t.midi.rxqOvf = s.midi.rxqOvf
  tx : t.midi.tx = s.midi.tx
  bpm : t.clk.bpm = s.clk.bpm
  beatTicks : t.clk.beatTicks = s.clk.beatTicks
  shuffle : t.clk.shuffle = s.clk.shuffle
  syncPpqn : t.clk.syncPpqn = s.clk.syncPpqn
  syncSrc : t.clk.syncSrc = s.clk.syncSrc
  tapBuf : t.clk.tapBuf = s.clk.tapBuf
  tapN : t.clk.tapN = s.clk.tapN
  lastTap : t.clk.lastTap = s.clk.lastTap
  lastTapValid : t.clk.lastTapValid = s.clk.lastTapValid
  pulses : t.clk.pulses = s.clk.pulses
  lane : ∀ (ch : Nat) (h : ch < noutMax), LaneFrame s.outs[ch] t.outs[ch]
  dead : ∀ (ch : Nat) (h : ch < noutMax), s.cfg.nout ≤ ch → t.outs[ch] = s.outs[ch]

theorem DrainFrame.refl (s : State) : DrainFrame s s := by
  constructor <;> first | rfl | exact fun _ _ => .refl _ | exact fun _ _ _ => rfl

theorem DrainFrame.trans {s t u : State} (h : DrainFrame s t) (k : DrainFrame t u) :
    DrainFrame s u where
  cfg := k.cfg.trans h.cfg
  resetAsserted := k.resetAsserted.trans h.resetAsserted
  pending := k.pending.trans h.pending
  inputs := k.inputs.trans h.inputs
  ins := k.ins.trans h.ins
  phase := k.phase.trans h.phase
  tickCount := k.tickCount.trans h.tickCount
  clkSkip := k.clkSkip.trans h.clkSkip
  rngDraws := k.rngDraws.trans h.rngDraws
  fault := k.fault.trans h.fault
  resp := k.resp.trans h.resp
  dac := k.dac.trans h.dac
  midiOut := k.midiOut.trans h.midiOut
  clkDiv := k.clkDiv.trans h.clkDiv
  autoOut := k.autoOut.trans h.autoOut
  moHold := k.moHold.trans h.moHold
  rx := k.rx.trans h.rx
  rxqOvf := k.rxqOvf.trans h.rxqOvf
  tx := k.tx.trans h.tx
  bpm := k.bpm.trans h.bpm
  beatTicks := k.beatTicks.trans h.beatTicks
  shuffle := k.shuffle.trans h.shuffle
  syncPpqn := k.syncPpqn.trans h.syncPpqn
  syncSrc := k.syncSrc.trans h.syncSrc
  tapBuf := k.tapBuf.trans h.tapBuf
  tapN := k.tapN.trans h.tapN
  lastTap := k.lastTap.trans h.lastTap
  lastTapValid := k.lastTapValid.trans h.lastTapValid
  pulses := k.pulses.trans h.pulses
  lane ch hc := (h.lane ch hc).trans (k.lane ch hc)
  dead ch hc hn := (k.dead ch hc (h.cfg ▸ hn)).trans (h.dead ch hc hn)

/-- A pass over the existing lanes has the frame if its function has. -/
theorem forOutputs_frame (s : State) (f : OutChannel → OutChannel) (hf : ∀ c, LaneFrame c (f c)) :
    DrainFrame s (s.forOutputs f) := by
  constructor <;> first | rfl | skip
  · intro ch h
    rw [forOutputs_outs, mapLive_get]
    split
    · exact hf _
    · exact .refl _
  · intro ch h hn
    rw [forOutputs_outs, mapLive_get, if_neg (Nat.not_lt.mpr hn)]

theorem forMatching_frame (s : State) (mch : BitVec 4) (f : OutChannel → OutChannel)
    (hf : ∀ c, LaneFrame c (f c)) : DrainFrame s (s.forMatching mch f) :=
  forOutputs_frame s _ fun c => by split; exacts [hf c, .refl c]

/-- A change of the dispatch's own MIDI registers has the frame. -/
theorem setMidi_frame (s : State) (stack : Vector (List NoteEntry) nmidiMax) (mask : BitVec 12)
    (sustain : BitVec 16) (log : List LogEntry) (cnt : BitVec 8) (running clkTick : Bool) :
    DrainFrame s { s with midi := { s.midi with
      stack := stack, semitoneMask := mask, sustain := sustain, log := log, ppqnCnt := cnt,
      running := running, clkTick := clkTick } } := by
  constructor <;> first | rfl | exact fun _ _ => .refl _ | exact fun _ _ _ => rfl

theorem selectNote_frame (cfg : Config) (st : List NoteEntry) (c : OutChannel) :
    LaneFrame c (c.selectNote cfg st) := by
  unfold OutChannel.selectNote
  split <;> constructor <;> rfl

theorem onNoteOnLane_frame (cfg : Config) (st : List NoteEntry) (v : BitVec 7) (c : OutChannel) :
    LaneFrame c (c.onNoteOn cfg st v) := by
  unfold OutChannel.onNoteOn
  split <;> first | exact selectNote_frame _ _ _ | (constructor <;> rfl)

theorem onNoteOffLane_frame (cfg : Config) (st : List NoteEntry) (c : OutChannel) :
    LaneFrame c (c.onNoteOff cfg st) := by
  unfold OutChannel.onNoteOff
  split
  case h_9 => split <;> constructor <;> rfl
  all_goals first | exact selectNote_frame _ _ _ | exact .refl c

theorem gateOff_frame (c : OutChannel) : LaneFrame c c.gateOff := by
  unfold OutChannel.gateOff; split <;> constructor <;> rfl

theorem onCcLane_frame (cfg : Config) (n v : BitVec 7) (c : OutChannel) :
    LaneFrame c (c.onCc cfg n v) := by
  unfold OutChannel.onCc
  dsimp only
  split
  · split <;> split <;> constructor <;> rfl
  · exact .refl c

theorem onPressure_frame (cfg : Config) (v : BitVec 7) (c : OutChannel) :
    LaneFrame c (c.onPressure cfg v) := by
  unfold OutChannel.onPressure; split <;> constructor <;> rfl

theorem onBendLane_frame (cfg : Config) (v : Nat) (c : OutChannel) :
    LaneFrame c (c.onBend cfg v) := by
  unfold OutChannel.onBend; split <;> constructor <;> rfl

theorem requestTrig_frame (fn : MapFn) (c : OutChannel) : LaneFrame c (c.requestTrig fn) := by
  unfold OutChannel.requestTrig; split <;> constructor <;> rfl

theorem logMessage_frame (s : State) (k : MsgKind) (m : MidiMsg) :
    DrainFrame s (s.logMessage k m) := by
  unfold State.logMessage
  split
  · exact .refl s
  · exact setMidi_frame s _ _ _ _ _ _ _

theorem startActions_frame (s : State) : DrainFrame s s.startActions := by
  refine (forOutputs_frame s (fun c => { c with pulsePar := false, shufCd := 0 })
    fun c => by constructor <;> rfl).trans ?_
  constructor <;> first | rfl | exact fun _ _ => .refl _ | exact fun _ _ _ => rfl

theorem stopActions_frame (s : State) : DrainFrame s s.stopActions := by
  refine (forOutputs_frame s (fun c => { c with shufCd := 0 })
    fun c => by constructor <;> rfl).trans ?_
  constructor <;> first | rfl | exact fun _ _ => .refl _ | exact fun _ _ _ => rfl

theorem setEngine_frame (s : State) (p : ClkState) (e : Bool) :
    DrainFrame s { s with clk := { s.clk with state := p, emitClk := e } } := by
  constructor <;> first | rfl | exact fun _ _ => .refl _ | exact fun _ _ _ => rfl

theorem setClkState_frame (s : State) (p : ClkState) : DrainFrame s (s.setClkState p) :=
  setEngine_frame s p s.clk.emitClk

theorem clockMidiStart_frame (s : State) : DrainFrame s s.clockMidiStart :=
  (setEngine_frame s _ _).trans (startActions_frame _)

theorem clockMidiStop_frame (s : State) : DrainFrame s s.clockMidiStop :=
  (setEngine_frame s _ _).trans (stopActions_frame _)

theorem onNoteOn_frame (s : State) (mch : BitVec 4) (m : MidiMsg) :
    DrainFrame s (s.onNoteOn mch m) :=
  (setMidi_frame s _ _ _ _ _ _ _).trans
    (forMatching_frame _ _ _ fun c => onNoteOnLane_frame _ _ _ c)

theorem onNoteOff_frame (s : State) (mch : BitVec 4) (m : MidiMsg) :
    DrainFrame s (s.onNoteOff mch m) := by
  unfold State.onNoteOff
  dsimp only
  split
  · exact setMidi_frame s _ _ _ _ _ _ _
  · exact (setMidi_frame s _ _ _ _ _ _ _).trans
      (forMatching_frame _ _ _ fun c => onNoteOffLane_frame _ _ c)

theorem sustainOn_frame (s : State) (mch : BitVec 4) : DrainFrame s (s.sustainOn mch) := by
  unfold State.sustainOn
  split
  · exact .refl s
  · exact setMidi_frame s _ _ _ _ _ _ _

theorem sustainOff_frame (s : State) (mch : BitVec 4) : DrainFrame s (s.sustainOff mch) := by
  unfold State.sustainOff
  dsimp only
  split
  · exact (setMidi_frame s _ _ _ _ _ _ _).trans (forMatching_frame _ _ _ gateOff_frame)
  · exact setMidi_frame s _ _ _ _ _ _ _

theorem onCc_frame (s : State) (mch : BitVec 4) (m : MidiMsg) : DrainFrame s (s.onCc mch m) := by
  unfold State.onCc
  split
  · split
    · exact sustainOn_frame s mch
    · exact sustainOff_frame s mch
  · exact forMatching_frame _ _ _ fun c => onCcLane_frame _ _ _ c

theorem onAtPoly_frame (s : State) (mch : BitVec 4) (m : MidiMsg) :
    DrainFrame s (s.onAtPoly mch m) := by
  unfold State.onAtPoly
  split
  · exact forMatching_frame _ _ _ fun c => onPressure_frame _ _ c
  · exact .refl s

theorem onClock_frame (s : State) : DrainFrame s s.onClock := by
  unfold State.onClock
  split
  · exact (setMidi_frame s _ _ _ _ _ _ _).trans (forOutputs_frame _ _ fun c => requestTrig_frame _ c)
  · exact setMidi_frame s _ _ _ _ _ _ _

theorem transportStart_frame (s : State) : DrainFrame s s.transportStart :=
  ((setMidi_frame s _ _ _ _ _ _ _).trans
    (forOutputs_frame _ _ fun c => requestTrig_frame _ c)).trans (clockMidiStart_frame _)

theorem transportStop_frame (s : State) : DrainFrame s s.transportStop :=
  ((setMidi_frame s _ _ _ _ _ _ _).trans (forOutputs_frame _ _ gateOff_frame)).trans
    (clockMidiStop_frame _)

theorem onKind_frame (s : State) (k : MsgKind) (m : MidiMsg) : DrainFrame s (s.onKind k m) := by
  cases k with
  | noteOff mch => exact onNoteOff_frame s mch m
  | noteOn mch => exact onNoteOn_frame s mch m
  | atPoly mch => exact onAtPoly_frame s mch m
  | cc mch => exact onCc_frame s mch m
  | atChan mch => exact forMatching_frame _ _ _ fun c => onPressure_frame _ _ c
  | pbend mch => exact forMatching_frame _ _ _ fun c => onBendLane_frame _ _ c
  | clock => exact onClock_frame s
  | start => exact transportStart_frame s
  | cont => exact transportStart_frame s
  | stop => exact transportStop_frame s
  | sysReset => exact transportStop_frame s

/-- Everything the dispatch of one message leaves alone. -/
theorem processMidi_frame (s : State) (m : MidiMsg) : DrainFrame s (s.processMidi m) := by
  unfold State.processMidi
  split
  · exact (logMessage_frame s _ m).trans (onKind_frame _ _ m)
  · exact .refl s

/-- Everything the dispatch of a list of messages leaves alone. -/
theorem foldl_processMidi_frame (ms : List MidiMsg) (s : State) :
    DrainFrame s (ms.foldl State.processMidi s) := by
  induction ms generalizing s with
  | nil => exact .refl s
  | cons m ms ih => exact (processMidi_frame s m).trans (ih _)

/-- Everything the drain leaves alone, but for the queue it empties. -/
theorem drain_frame (s : State) :
    DrainFrame { s with midi := { s.midi with rx := [] } } s.drainMidi :=
  foldl_processMidi_frame _ _

/-- A property that the dispatch of every message keeps, a drain keeps. -/
theorem foldl_processMidi_keeps {p : State → Prop} (hp : ∀ s m, p s → p (s.processMidi m))
    (ms : List MidiMsg) (s : State) (h : p s) : p (ms.foldl State.processMidi s) := by
  induction ms generalizing s with
  | nil => exact h
  | cons m ms ih => exact ih _ (hp s m h)

end Sys2Proof.Machine
end

