-- ==== Sys2Proof/Laws/Clock.lean ====
section
/-! SUPPORT. What the clock step can do (`clockStep_cases`) and what it leaves alone
(`clockStep_frame`). -/

namespace Sys2Proof.Machine

/-- What the clock step leaves alone (44_clock_engine.md R260, R270 to R279). -/
structure EngineFrame (s t : State) : Prop where
  cfg : t.cfg = s.cfg
  resetAsserted : t.resetAsserted = s.resetAsserted
  pending : t.pending = s.pending
  inputs : t.inputs = s.inputs
  ins : t.ins = s.ins
  phase : t.phase = s.phase
  tickCount : t.tickCount = s.tickCount
  clkSkip : t.clkSkip = s.clkSkip
  rngDraws : t.rngDraws = s.rngDraws
  fault : t.fault = s.fault
  resp : t.resp = s.resp
  dac : t.dac = s.dac
  midiOut : t.midiOut = s.midiOut
  midi : t.midi = { s.midi with tx := t.midi.tx }
  shuffle : t.clk.shuffle = s.clk.shuffle
  emitClk : t.clk.emitClk = s.clk.emitClk
  syncPpqn : t.clk.syncPpqn = s.clk.syncPpqn
  syncSrc : t.clk.syncSrc = s.clk.syncSrc
  tapBuf : t.clk.tapBuf = s.clk.tapBuf
  tapN : t.clk.tapN = s.clk.tapN
  lastTap : t.clk.lastTap = s.clk.lastTap
  lastTapValid : t.clk.lastTapValid = s.clk.lastTapValid
  lane : ∀ (ch : Nat) (h : ch < noutMax), t.outs[ch] = { s.outs[ch] with
    pulsePar := t.outs[ch].pulsePar, shufCd := t.outs[ch].shufCd, tock := t.outs[ch].tock }
  dead : ∀ (ch : Nat) (h : ch < noutMax), s.cfg.nout ≤ ch → t.outs[ch] = s.outs[ch]

theorem EngineFrame.refl (s : State) : EngineFrame s s := by
  constructor <;> first | rfl | exact fun _ _ => rfl | exact fun _ _ _ => rfl

theorem EngineFrame.trans {s t u : State} (h : EngineFrame s t) (k : EngineFrame t u) :
    EngineFrame s u where
  cfg := k.cfg.trans h.cfg
  resetAsserted := k.resetAsserted.trans h.resetAsserted
  pending := k.pending.trans h.pending
  inputs := k.inputs.trans h.inputs
  ins := k.ins.trans h.ins
  phase := k.phase.trans h.phase
  tickCount := k.tickCount.trans h.tickCount
  clkSkip := k.clkSkip.trans h.clkSkip
  rngDraws := k.rngDraws.trans h.rngDraws
  fault := k.fault.trans h.fault
  resp := k.resp.trans h.resp
  dac := k.dac.trans h.dac
  midiOut := k.midiOut.trans h.midiOut
  midi := by rw [k.midi, h.midi]
  shuffle := k.shuffle.trans h.shuffle
  emitClk := k.emitClk.trans h.emitClk
  syncPpqn := k.syncPpqn.trans h.syncPpqn
  syncSrc := k.syncSrc.trans h.syncSrc
  tapBuf := k.tapBuf.trans h.tapBuf
  tapN := k.tapN.trans h.tapN
  lastTap := k.lastTap.trans h.lastTap
  lastTapValid := k.lastTapValid.trans h.lastTapValid
  lane ch hc := by rw [k.lane ch hc, h.lane ch hc]
  dead ch hc hn := (k.dead ch hc (h.cfg ▸ hn)).trans (h.dead ch hc hn)

/-- A pass over the existing lanes that writes the engine's own elements only. -/
theorem forOutputs_engine (s : State) (f : OutChannel → OutChannel)
    (hf : ∀ c, f c = { c with
      pulsePar := (f c).pulsePar, shufCd := (f c).shufCd, tock := (f c).tock }) :
    EngineFrame s (s.forOutputs f) := by
  constructor <;> first | rfl | skip
  · intro ch h
    rw [forOutputs_outs, mapLive_get]
    split
    · exact hf _
    · rfl
  · intro ch h hn
    rw [forOutputs_outs, mapLive_get, if_neg (Nat.not_lt.mpr hn)]

/-- A change of the engine's own registers. -/
theorem setClk_engine (s : State) (k : ClockState) (hs : k.shuffle = s.clk.shuffle)
    (he : k.emitClk = s.clk.emitClk) (hp : k.syncPpqn = s.clk.syncPpqn)
    (hr : k.syncSrc = s.clk.syncSrc) (hb : k.tapBuf = s.clk.tapBuf) (hn : k.tapN = s.clk.tapN)
    (hl : k.lastTap = s.clk.lastTap) (hv : k.lastTapValid = s.clk.lastTapValid) :
    EngineFrame s { s with clk := k } := by
  constructor <;> first | rfl | assumption | exact fun _ _ => rfl | exact fun _ _ _ => rfl

theorem emit_engine (s : State) (l : List OutMsg) : EngineFrame s (s.emit l) := by
  constructor <;> first | rfl | exact fun _ _ => rfl | exact fun _ _ _ => rfl

/-- `ChannelPulse` writes only the channel's parity, countdown and tock flag. -/
theorem channelPulse_lane (cfg : Config) (k : ClockState) (c : OutChannel) :
    channelPulse cfg k c = { c with
      pulsePar := (channelPulse cfg k c).pulsePar, shufCd := (channelPulse cfg k c).shufCd,
      tock := (channelPulse cfg k c).tock } := by
  unfold channelPulse
  dsimp only
  split
  · rfl
  · split <;> first | rfl | (split <;> rfl)

theorem startActions_engine (s : State) : EngineFrame s s.startActions :=
  (forOutputs_engine s (fun c => { c with pulsePar := false, shufCd := 0 }) fun _ => rfl).trans
    (setClk_engine _ s.clk.started rfl rfl rfl rfl rfl rfl rfl rfl)

theorem setClkState_engine (s : State) (p : ClkState) : EngineFrame s (s.setClkState p) :=
  setClk_engine s _ rfl rfl rfl rfl rfl rfl rfl rfl

/-- A measured beat: the tempo is computed from what `beat_ticks` holds (R271). -/
theorem setMeasured_bpm (k : ClockState) (cfg : Config) (t : Nat) :
    (k.setMeasured cfg t).bpm = fitNat 9 (clampNat
      (Config.quotient cfg.ticksPerMin (k.setMeasured cfg t).beatTicks.toNat)
      cfg.bpmMin cfg.bpmMax) := rfl

/-- What a re-measurement and the pulse count leave alone. -/
theorem syncPulse_engine (k : ClockState) (cfg : Config) :
    k.syncPulse cfg = { k with
      bpm := (k.syncPulse cfg).bpm, beatTicks := (k.syncPulse cfg).beatTicks,
      beatPos := (k.syncPulse cfg).beatPos, beatCount := (k.syncPulse cfg).beatCount,
      sinceSync := 0, syncSeen := true,
      syncCnt := BitVec.ofNat 5 ((k.syncCnt.toNat + 1) % k.syncPpqn.toNat),
      pulses := { locked := k.syncSeen, since := k.sinceSync, ppqn := k.syncPpqn } :: k.pulses } := by
  unfold ClockState.syncPulse ClockState.reconcile ClockState.setMeasured ClockState.notePulse
  dsimp only
  split <;> split <;> rfl

theorem externalSync_engine (s : State) : EngineFrame s s.externalSync := by
  unfold State.externalSync
  dsimp only
  split
  · refine ((setClkState_engine s .running).trans (startActions_engine _)).trans
      (setClk_engine _ _ ?_ ?_ ?_ ?_ ?_ ?_ ?_ ?_) <;> rw [syncPulse_engine]
  · refine setClk_engine _ _ ?_ ?_ ?_ ?_ ?_ ?_ ?_ ?_ <;> rw [syncPulse_engine]

theorem countSinceSync_engine (s : State) : EngineFrame s s.countSinceSync := by
  unfold State.countSinceSync
  split
  · exact setClk_engine s _ rfl rfl rfl rfl rfl rfl rfl rfl
  · exact .refl s

theorem midiClockEmit_engine (s : State) : EngineFrame s s.midiClockEmit := by
  unfold State.midiClockEmit
  split
  · exact emit_engine _ _
  · exact .refl s

theorem advance_engine (k : ClockState) :
    k.advance = { k with beatPos := k.advance.beatPos, beatCount := k.advance.beatCount } := by
  unfold ClockState.advance
  dsimp only
  split <;> rfl

theorem runBeat_engine (s : State) : EngineFrame s s.runBeat := by
  unfold State.runBeat
  dsimp only
  refine ((forOutputs_engine s _ fun c => channelPulse_lane _ _ c).trans
    (midiClockEmit_engine _)).trans (setClk_engine _ _ ?_ ?_ ?_ ?_ ?_ ?_ ?_ ?_) <;>
    rw [advance_engine]

/-- Everything the clock step leaves alone. -/
theorem clockStep_frame (s : State) : EngineFrame s s.clockStep := by
  unfold State.clockStep
  dsimp only
  split <;> split
  · exact ((countSinceSync_engine s).trans (externalSync_engine _)).trans (runBeat_engine _)
  · exact (countSinceSync_engine s).trans (externalSync_engine _)
  · exact (countSinceSync_engine s).trans (runBeat_engine _)
  · exact countSinceSync_engine s

theorem countSinceSync_state (s : State) : s.countSinceSync.clk.state = s.clk.state := by
  unfold State.countSinceSync; split <;> rfl

theorem countSinceSync_outs (s : State) : s.countSinceSync.outs = s.outs := by
  unfold State.countSinceSync; split <;> rfl

theorem countSinceSync_of_not (s : State) (h : s.clk.state ≠ .running) : s.countSinceSync = s := by
  simp [State.countSinceSync, h]

theorem countSinceSync_of_running (s : State) (h : s.clk.state = .running) :
    s.countSinceSync =
      { s with clk := { s.clk with sinceSync := satSucc s.clk.sinceSync } } := by
  simp [State.countSinceSync, h]

theorem countSinceSync_clocked (s : State) : s.countSinceSync.syncClocked = s.syncClocked := by
  unfold State.countSinceSync; split <;> rfl

theorem syncPulse_state (k : ClockState) (cfg : Config) : (k.syncPulse cfg).state = k.state := by
  rw [syncPulse_engine]

/-- An accepted sync pulse leaves the engine running, if it was not stopped. -/
theorem externalSync_state (s : State) (h : s.clk.state ≠ .stopped) :
    s.externalSync.clk.state = .running := by
  unfold State.externalSync
  dsimp only
  split
  · rw [syncPulse_state]; rfl
  · rw [syncPulse_state]
    cases hs : s.clk.state <;> simp_all

/-- Everything the clock step can do: nothing while stopped, or while paused without a sync pulse;
else a beat is run, after an accepted pulse if there is one. -/
theorem clockStep_cases (s : State) :
    (s.clk.state = .stopped ∧ s.clockStep = s)
    ∨ (s.clk.state = .paused ∧ s.syncClocked = false ∧ s.clockStep = s)
    ∨ (s.clk.state = .paused ∧ s.syncClocked = true ∧ s.clockStep = s.externalSync.runBeat)
    ∨ (s.clk.state = .running ∧ s.syncClocked = false ∧ s.clockStep = s.countSinceSync.runBeat)
    ∨ (s.clk.state = .running ∧ s.syncClocked = true
        ∧ s.clockStep = s.countSinceSync.externalSync.runBeat) := by
  have hc := countSinceSync_clocked s
  have hs := countSinceSync_state s
  unfold State.clockStep
  cases h : s.clk.state with
  | stopped =>
    have := countSinceSync_of_not s (by simp [h])
    simp_all
  | paused =>
    have h0 := countSinceSync_of_not s (by simp [h])
    have h1 := externalSync_state s (by simp [h])
    cases hb : s.syncClocked <;> simp_all
  | running =>
    have h1 := externalSync_state s.countSinceSync (by simp [h, hs])
    cases hb : s.syncClocked <;> simp_all

theorem midiClockEmit_tx (s : State) :
    ∃ clk : List OutMsg, (clk = [] ∨ clk = [{ status := 0xF8, d1 := 0, d2 := 0 }])
      ∧ s.midiClockEmit.midi.tx = s.midi.tx ++ clk := by
  unfold State.midiClockEmit
  split
  · exact ⟨_, .inr rfl, rfl⟩
  · exact ⟨[], .inl rfl, (List.append_nil _).symm⟩

theorem runBeat_tx (s : State) :
    ∃ clk : List OutMsg, (clk = [] ∨ clk = [{ status := 0xF8, d1 := 0, d2 := 0 }])
      ∧ s.runBeat.midi.tx = s.midi.tx ++ clk :=
  midiClockEmit_tx (s.forOutputs (channelPulse s.cfg s.clk))

theorem externalSync_midi (s : State) : s.externalSync.midi = s.midi := by
  unfold State.externalSync; dsimp only; split <;> rfl

theorem countSinceSync_midi (s : State) : s.countSinceSync.midi = s.midi := by
  unfold State.countSinceSync; split <;> rfl

/-- The clock step appends at most one Clock message (44_clock_engine.md R279). -/
theorem clockStep_tx (s : State) :
    ∃ clk : List OutMsg, (clk = [] ∨ clk = [{ status := 0xF8, d1 := 0, d2 := 0 }])
      ∧ s.clockStep.midi.tx = s.midi.tx ++ clk := by
  rcases clockStep_cases s with ⟨-, h⟩ | ⟨-, -, h⟩ | ⟨-, -, h⟩ | ⟨-, -, h⟩ | ⟨-, -, h⟩ <;> rw [h]
  · exact ⟨[], .inl rfl, (List.append_nil _).symm⟩
  · exact ⟨[], .inl rfl, (List.append_nil _).symm⟩
  · simpa only [externalSync_midi] using runBeat_tx s.externalSync
  · simpa only [countSinceSync_midi] using runBeat_tx s.countSinceSync
  · simpa only [externalSync_midi, countSinceSync_midi] using
      runBeat_tx s.countSinceSync.externalSync

theorem midiClockEmit_clk (s : State) : s.midiClockEmit.clk = s.clk := by
  unfold State.midiClockEmit; split <;> rfl

/-- Everything a run beat does (R270, R279). -/
theorem runBeat_eq (s : State) : s.runBeat = { s with
    outs := mapLive s.cfg.nout (channelPulse s.cfg s.clk) s.outs, clk := s.clk.advance
    midi := { s.midi with
      tx := s.midi.tx ++
        if midiClockDue s.cfg s.clk then [{ status := 0xF8, d1 := 0, d2 := 0 }] else [] } } := by
  unfold State.runBeat State.midiClockEmit
  rw [forOutputs_cfg, forOutputs_clk]
  cases h : midiClockDue s.cfg s.clk <;> simp [State.forOutputs, State.emit]

/-- The engine's registers after a run beat. -/
theorem runBeat_clk (s : State) : s.runBeat.clk = s.clk.advance := by
  simp [State.runBeat, midiClockEmit_clk]

/-- The lanes after a run beat. -/
theorem runBeat_outs (s : State) :
    s.runBeat.outs = mapLive s.cfg.nout (channelPulse s.cfg s.clk) s.outs := by
  unfold State.runBeat State.midiClockEmit
  dsimp only
  split <;> rfl

/-- The engine's registers after an accepted pulse while running. -/
theorem externalSync_clk_running (s : State) (h : s.clk.state = .running) :
    s.externalSync.clk = s.clk.syncPulse s.cfg := by
  simp [State.externalSync, h]

/-- The engine's registers after the pulse that starts a paused engine. -/
theorem externalSync_clk_paused (s : State) (h : s.clk.state = .paused) :
    s.externalSync.clk = ({ s.clk with state := .running }).started.syncPulse s.cfg := by
  simp [State.externalSync, h, State.setClkState]

/-- The first press only notes the tick (R269). -/
theorem tapPress_first (k : ClockState) (cfg : Config) (now : BitVec 32)
    (h : k.lastTapValid = false) :
    k.tapPress cfg now = { k with lastTap := now, lastTapValid := true } := by
  simp [ClockState.tapPress, h]

/-- A later press handles the interval, then notes the tick. -/
theorem tapPress_next (k : ClockState) (cfg : Config) (now : BitVec 32)
    (h : k.lastTapValid = true) :
    k.tapPress cfg now = { k.tapInterval cfg (now - k.lastTap) with
      lastTap := now, lastTapValid := true } := by
  simp only [ClockState.tapPress, h, if_true]

/-- Too long an interval empties the buffer. -/
theorem tapInterval_long (k : ClockState) (cfg : Config) (iv : BitVec 32)
    (h : cfg.tapMaxTicks < iv.toNat) : k.tapInterval cfg iv = { k with tapN := 0 } := if_pos h

/-- An interval that leaves the gesture short of `TAP_N` is stored. -/
theorem tapInterval_stores (k : ClockState) (cfg : Config) (iv : BitVec 32)
    (h : iv.toNat ≤ cfg.tapMaxTicks) (hn : k.tapN + 1 ≠ cfg.tapN) :
    k.tapInterval cfg iv = { k with tapBuf := k.tapBuf.set k.tapN iv, tapN := k.tapN + 1 } :=
  (if_neg (Nat.not_lt.mpr h)).trans (if_neg hn)

/-- The interval that makes `TAP_N` sets the tempo of the average. -/
theorem tapInterval_sets (k : ClockState) (cfg : Config) (iv : BitVec 32)
    (h : iv.toNat ≤ cfg.tapMaxTicks) (hn : k.tapN + 1 = cfg.tapN) :
    k.tapInterval cfg iv = ({ k with tapBuf := k.tapBuf.set k.tapN iv, tapN := 0 }).setTempo cfg
      (tapBpm cfg (tapSum (k.tapBuf.set k.tapN iv) / cfg.tapN)) :=
  (if_neg (Nat.not_lt.mpr h)).trans (if_pos hn)

/-- A shuffle countdown of 1 comes due (R274). -/
theorem shufCd_due (cd : BitVec 32) :
    (cd != 0 && (if cd = 0 then 0 else cd - 1) == 0) = decide (cd = 1) := by
  by_cases h : cd = 0
  · subst h; rfl
  · have e : cd - 1 = 0 ↔ cd = 1 := sub_eq_zero
    rw [if_neg h, Bool.eq_iff_iff]
    simp only [Bool.and_eq_true, bne_iff_ne, beq_iff_eq, decide_eq_true_eq, e, ne_eq, h,
      not_false_eq_true, true_and]

/-- `satSucc` counts up to its largest value (00_scope.md R8). -/
theorem satSucc_toNat (v : BitVec 32) : (satSucc v).toNat = min (v.toNat + 1) (2 ^ 32 - 1) := by
  have hv := v.isLt
  unfold satSucc
  split
  · rename_i h
    subst h
    decide
  · rename_i h
    have : v.toNat ≠ 2 ^ 32 - 1 := fun e => h (BitVec.eq_of_toNat_eq e)
    rw [BitVec.toNat_add_of_lt] <;> simp <;> omega

/-- The pulses of a multiplied channel (R272). -/
theorem nominalPulse_pos (cfg : Config) (mult : BitVec 8) (beat pos count : Nat)
    (h : 0 < mult.toInt) :
    nominalPulse cfg mult beat pos count =
      if ((List.range (mult.toInt.toNat + cfg.multPosOffset)).any fun k =>
          k * beat / (mult.toInt.toNat + cfg.multPosOffset) == pos) = true then
        some (beat / (mult.toInt.toNat + cfg.multPosOffset)) else none := if_pos h

/-- The pulses of a divided channel (R272). -/
theorem nominalPulse_neg (cfg : Config) (mult : BitVec 8) (beat pos count : Nat)
    (h : mult.toInt < 0) :
    nominalPulse cfg mult beat pos count =
      if pos = 0 ∧ count % ((-mult.toInt).toNat + 1) = 0 then
        some (beat * ((-mult.toInt).toNat + 1)) else none :=
  (if_neg (Int.not_lt.mpr (Int.le_of_lt h))).trans (if_pos h)

/-- A silent channel (R272). -/
theorem nominalPulse_zero (cfg : Config) (mult : BitVec 8) (beat pos count : Nat)
    (h : mult.toInt = 0) : nominalPulse cfg mult beat pos count = none := by
  simp [nominalPulse, h]

/-- A step without a nominal pulse (R274). -/
theorem channelPulse_none (cfg : Config) (k : ClockState) (c : OutChannel)
    (h : nominalPulse cfg c.mult k.beatTicks.toNat k.beatPos.toNat k.beatCount.toNat = none) :
    channelPulse cfg k c = { c with
      shufCd := if c.shufCd = 0 then 0 else c.shufCd - 1
      tock := c.shufCd != 0 && (if c.shufCd = 0 then 0 else c.shufCd - 1) == 0 } := by
  unfold channelPulse; rw [h]

/-- A nominal pulse that fires at once (R274). -/
theorem channelPulse_fires (cfg : Config) (k : ClockState) (c : OutChannel) (period : Nat)
    (h : nominalPulse cfg c.mult k.beatTicks.toNat k.beatPos.toNat k.beatCount.toNat = some period)
    (hd : c.pulsePar = false ∨ shuffleDelay cfg period k.shuffle.toNat = 0) :
    channelPulse cfg k c = { c with
      shufCd := if c.shufCd = 0 then 0 else c.shufCd - 1, pulsePar := !c.pulsePar, tock := true } := by
  unfold channelPulse; rw [h]
  refine if_pos ?_
  rcases hd with hd | hd
  · rw [hd]; rfl
  · split
    · exact hd
    · rfl

/-- A nominal pulse that is delayed (R274). -/
theorem channelPulse_delays (cfg : Config) (k : ClockState) (c : OutChannel) (period : Nat)
    (h : nominalPulse cfg c.mult k.beatTicks.toNat k.beatPos.toNat k.beatCount.toNat = some period)
    (hp : c.pulsePar = true) (hd : shuffleDelay cfg period k.shuffle.toNat ≠ 0) :
    channelPulse cfg k c = { c with
      shufCd := fitNat 32 (shuffleDelay cfg period k.shuffle.toNat), pulsePar := !c.pulsePar
      tock := c.shufCd != 0 && (if c.shufCd = 0 then 0 else c.shufCd - 1) == 0 } := by
  unfold channelPulse; rw [h]
  dsimp only
  rw [if_pos hp, if_neg hd]

end Sys2Proof.Machine
end

