-- ==== Sys2Proof/Laws/Config.lean ====
section
/-! SUPPORT. What configuration and status register access can do. -/

namespace Sys2Proof.Machine

/-- Everything `CFGW` can answer (45_config.md R300). -/
theorem execCfgw_cases {addr : BitVec 8} {val : BitVec 16} {s t : State}
    (h : execCfgw addr val s = .next t) :
    t = s.raise .badRegister (encode (.cfgw addr val))
    ∨ t = s.raise .badValue (encode (.cfgw addr val))
    ∨ ∃ r, regAt s.cfg.nout addr = some r ∧ r.writable = true ∧ legalValue s.cfg r val = true
        ∧ t = (writeReg r val s).respond 0 := by
  unfold execCfgw at h
  split at h
  · exact .inl (Host.Outcome.next.inj h).symm
  · rename_i r hr
    obtain ⟨h1, h2⟩ := Option.filter_eq_some_iff.mp hr
    split at h
    · exact .inr (.inr ⟨r, h1, h2, ‹_›, (Host.Outcome.next.inj h).symm⟩)
    · exact .inr (.inl (Host.Outcome.next.inj h).symm)

/-- Everything `CFGR` can answer (R301). -/
theorem execCfgr_cases {addr : BitVec 8} {s t : State} (h : execCfgr addr s = .next t) :
    t = s.raise .badRegister (encode (.cfgr addr))
    ∨ ∃ r, regAt s.cfg.nout addr = some r ∧ t = s.respond (regWord (readReg r s)) := by
  unfold execCfgr at h
  split at h
  · exact .inl (Host.Outcome.next.inj h).symm
  · exact .inr ⟨_, ‹_›, (Host.Outcome.next.inj h).symm⟩

/-- A lane written through a register. -/
theorem updateLane_get (s : State) (ch : BitVec 3) (f : OutChannel → OutChannel) (i : Nat)
    (h : i < noutMax) :
    (s.updateLane ch f).outs[i] = if ch.toNat = i then f s.outs[i] else s.outs[i] := by
  simp only [State.updateLane, setOut_outs, State.lane]
  rw [Vector.getElem_setIfInBounds]
  split
  · rename_i e; subst e; rfl
  · rfl

/-- What a register write leaves alone, whatever the register (R300). -/
theorem writeReg_frame (r : Reg) (val : BitVec 16) (s : State) :
    writeReg r val s = { s with
      outs := (writeReg r val s).outs, clkSkip := (writeReg r val s).clkSkip,
      midi := { s.midi with
        clkDiv := (writeReg r val s).midi.clkDiv, autoOut := (writeReg r val s).midi.autoOut,
        moHold := (writeReg r val s).midi.moHold },
      clk := { s.clk with
        bpm := (writeReg r val s).clk.bpm, beatTicks := (writeReg r val s).clk.beatTicks,
        shuffle := (writeReg r val s).clk.shuffle, syncPpqn := (writeReg r val s).clk.syncPpqn,
        syncSrc := (writeReg r val s).clk.syncSrc } } := by
  cases r <;> rfl

/-- What a register write leaves alone in a lane. -/
theorem writeReg_lane (r : Reg) (val : BitVec 16) (s : State) (ch : Nat) (h : ch < noutMax) :
    (writeReg r val s).outs[ch] = { s.outs[ch] with
      mapMch := (writeReg r val s).outs[ch].mapMch, mapFn := (writeReg r val s).outs[ch].mapFn,
      mapCc := (writeReg r val s).outs[ch].mapCc, ccUnset := (writeReg r val s).outs[ch].ccUnset,
      mult := (writeReg r val s).outs[ch].mult, moFn := (writeReg r val s).outs[ch].moFn,
      moChan := (writeReg r val s).outs[ch].moChan } := by
  cases r <;> first
    | rfl
    | (simp only [writeReg, updateLane_get]; split <;> rfl)

end Sys2Proof.Machine
end

