-- ==== Sys2Proof/Laws/Decode.lean ====
section
/-! SUPPORT. The numbers command words and their fields stand for, so that facts of the encoding are
facts of arithmetic. -/

namespace Sys2Proof

/-- The number of a concatenation. -/
theorem toNat_append_add {n m : Nat} (a : BitVec n) (b : BitVec m) :
    (a ++ b).toNat = a.toNat * 2 ^ m + b.toNat := by
  rw [BitVec.toNat_append, Nat.shiftLeft_eq, Nat.mul_comm, Nat.two_pow_add_eq_or_of_lt b.isLt]

theorem wordZ_toNat (op : BitVec 8) :
    (wordZ op).toNat = op.toNat * 2 ^ 24 := by
  refine (toNat_append_add (op) 0#24).trans ?_
  simp only [BitVec.toNat_ofNat]
  omega

theorem wordC_toNat (op : BitVec 8) (idx : BitVec 4) :
    (wordC op idx).toNat = op.toNat * 2 ^ 24 + idx.toNat * 2 ^ 20 := by
  refine (toNat_append_add (op ++ idx) 0#20).trans ?_
  rw [toNat_append_add]
  simp only [BitVec.toNat_ofNat]
  omega

theorem wordV_toNat (op : BitVec 8) (idx : BitVec 4) (imm : BitVec 16) :
    (wordV op idx imm).toNat = op.toNat * 2 ^ 24 + idx.toNat * 2 ^ 20 + imm.toNat := by
  refine (toNat_append_add (op ++ idx ++ 0#4) imm).trans ?_
  rw [toNat_append_add, toNat_append_add]
  simp only [BitVec.toNat_ofNat]
  omega

theorem wordR_toNat (op addr : BitVec 8) (val : BitVec 16) :
    (wordR op addr val).toNat = op.toNat * 2 ^ 24 + addr.toNat * 2 ^ 16 + val.toNat := by
  refine (toNat_append_add (op ++ addr) val).trans ?_
  rw [toNat_append_add]
  omega

theorem wordM_toNat (status : BitVec 8) (d1 d2 : BitVec 7) :
    (wordM status d1 d2).toNat
      = 16 * 2 ^ 24 + status.toNat * 2 ^ 16 + d1.toNat * 2 ^ 8 + d2.toNat := by
  refine (toNat_append_add (0x10#8 ++ status ++ 0#1 ++ d1 ++ 0#1) d2).trans ?_
  rw [toNat_append_add, toNat_append_add, toNat_append_add, toNat_append_add]
  simp only [BitVec.toNat_ofNat]
  omega

theorem voiceStatus_toNat (typ mch : BitVec 4) :
    (voiceStatus typ mch).toNat = typ.toNat * 2 ^ 4 + mch.toNat :=
  toNat_append_add typ mch

theorem extract_toNat {n : Nat} (w : BitVec n) (lo len : Nat) :
    (w.extractLsb' lo len).toNat = w.toNat / 2 ^ lo % 2 ^ len := by
  rw [BitVec.extractLsb'_toNat, Nat.shiftRight_eq_div_pow]

theorem opByte_toNat (w : Word) : (opByte w).toNat = w.toNat / 2 ^ 24 % 2 ^ 8 :=
  extract_toNat w 24 8

theorem idxField_toNat (w : Word) : (idxField w).toNat = w.toNat / 2 ^ 20 % 2 ^ 4 :=
  extract_toNat w 20 4

theorem byte2_toNat (w : Word) : (byte2 w).toNat = w.toNat / 2 ^ 16 % 2 ^ 8 :=
  extract_toNat w 16 8

theorem low16_toNat (w : Word) : (low16 w).toNat = w.toNat % 2 ^ 16 := by
  refine (extract_toNat w 0 16).trans ?_
  omega

theorem d1Field_toNat (w : Word) : (d1Field w).toNat = w.toNat / 2 ^ 8 % 2 ^ 7 :=
  extract_toNat w 8 7

theorem d2Field_toNat (w : Word) : (d2Field w).toNat = w.toNat % 2 ^ 7 := by
  refine (extract_toNat w 0 7).trans ?_
  omega

@[simp] theorem opByte_wordZ (op : BitVec 8) : opByte (wordZ op) = op := by
  apply BitVec.eq_of_toNat_eq
  rw [opByte_toNat, wordZ_toNat]
  omega

@[simp] theorem opByte_wordC (op : BitVec 8) (idx : BitVec 4) : opByte (wordC op idx) = op := by
  apply BitVec.eq_of_toNat_eq
  rw [opByte_toNat, wordC_toNat]
  omega

@[simp] theorem opByte_wordV (op : BitVec 8) (idx : BitVec 4) (imm : BitVec 16) :
    opByte (wordV op idx imm) = op := by
  apply BitVec.eq_of_toNat_eq
  rw [opByte_toNat, wordV_toNat]
  omega

@[simp] theorem opByte_wordR (op addr : BitVec 8) (val : BitVec 16) :
    opByte (wordR op addr val) = op := by
  apply BitVec.eq_of_toNat_eq
  rw [opByte_toNat, wordR_toNat]
  omega

@[simp] theorem opByte_wordM (status : BitVec 8) (d1 d2 : BitVec 7) :
    opByte (wordM status d1 d2) = 0x10 := by
  apply BitVec.eq_of_toNat_eq
  rw [opByte_toNat, wordM_toNat, show (0x10 : BitVec 8).toNat = 16 from rfl]
  omega

end Sys2Proof
end

