-- ==== Sys2Proof/Laws/Stack.lean ====
section
/-! SUPPORT. The list operations on note stacks (42_midi_in.md R193), said by what they hold. -/

namespace Sys2Proof.Machine

/-- Removing from a stack without duplicates keeps exactly the other notes. -/
theorem removeNote_eq (st : List NoteEntry) (n : BitVec 7) (h : distinctNotes st) :
    removeNote st n = withoutNote st n := by
  induction st with
  | nil => rfl
  | cons e st ih =>
    simp only [distinctNotes, List.map_cons, List.nodup_cons, List.mem_map, not_exists] at h
    by_cases hn : e.note = n
    · have hs : withoutNote st n = st := by
        refine List.filter_eq_self.mpr fun a ha => ?_
        simpa using fun hh => h.1 a ⟨ha, hh.trans hn.symm⟩
      simpa [removeNote, withoutNote, hn] using hs.symm
    · simpa [removeNote, withoutNote, hn] using ih h.2

/-- A note that is not held is not removed: the identity (R193). -/
theorem removeNote_absent (st : List NoteEntry) (n : BitVec 7) (h : ∀ e ∈ st, e.note ≠ n) :
    removeNote st n = st :=
  List.eraseP_of_forall_not fun e he => by simpa using h e he

theorem removeNote_distinct (st : List NoteEntry) (n : BitVec 7) (h : distinctNotes st) :
    distinctNotes (removeNote st n) :=
  List.Nodup.sublist (List.Sublist.map _ (List.eraseP_sublist)) h

theorem not_mem_removeNote (st : List NoteEntry) (n : BitVec 7) (h : distinctNotes st) :
    n ∉ (removeNote st n).map NoteEntry.note := by
  rw [removeNote_eq st n h]
  simp [withoutNote]

/-- A push keeps the notes different (R214). -/
theorem pushNote_distinct (st : List NoteEntry) (n v : BitVec 7) (h : distinctNotes st) :
    distinctNotes (pushNote st n v) := by
  unfold distinctNotes pushNote
  rw [List.map_append, List.map_singleton, List.nodup_append]
  refine ⟨removeNote_distinct st n h, List.nodup_singleton n, ?_⟩
  intro a ha b hb hab
  simp only [List.mem_singleton] at hb
  rw [hab, hb] at ha
  exact not_mem_removeNote st n h ha

theorem minNote_eq_none {st : List NoteEntry} : minNote st = none ↔ st = [] := by
  cases st with
  | nil => simp [minNote]
  | cons e st => simp only [minNote, reduceCtorEq, iff_false]; split <;> (try split) <;> simp

theorem maxNote_eq_none {st : List NoteEntry} : maxNote st = none ↔ st = [] := by
  cases st with
  | nil => simp [maxNote]
  | cons e st => simp only [maxNote, reduceCtorEq, iff_false]; split <;> (try split) <;> simp

/-- The smallest entry is held, and no note is below it. -/
theorem minNote_spec {st : List NoteEntry} {m : NoteEntry} (h : minNote st = some m) :
    m ∈ st ∧ ∀ e ∈ st, m.note ≤ e.note := by
  induction st generalizing m with
  | nil => cases h
  | cons a st ih =>
    simp only [minNote] at h
    cases hr : minNote st with
    | none =>
      rw [hr] at h
      cases h
      simp [minNote_eq_none.mp hr]
    | some x =>
      rw [hr] at h
      obtain ⟨hm, hx⟩ := ih hr
      dsimp only at h
      split at h <;> cases h
      · refine ⟨List.mem_cons_of_mem _ hm, fun e he => ?_⟩
        rcases List.mem_cons.mp he with rfl | he
        · exact BitVec.le_of_lt ‹_›
        · exact hx e he
      · refine ⟨List.mem_cons_self, fun e he => ?_⟩
        rcases List.mem_cons.mp he with rfl | he
        · exact BitVec.le_refl _
        · exact BitVec.le_trans (BitVec.not_lt.mp ‹_›) (hx e he)

/-- The largest entry is held, and no note is above it. -/
theorem maxNote_spec {st : List NoteEntry} {m : NoteEntry} (h : maxNote st = some m) :
    m ∈ st ∧ ∀ e ∈ st, e.note ≤ m.note := by
  induction st generalizing m with
  | nil => cases h
  | cons a st ih =>
    simp only [maxNote] at h
    cases hr : maxNote st with
    | none =>
      rw [hr] at h
      cases h
      simp [maxNote_eq_none.mp hr]
    | some x =>
      rw [hr] at h
      obtain ⟨hm, hx⟩ := ih hr
      dsimp only at h
      split at h <;> cases h
      · refine ⟨List.mem_cons_of_mem _ hm, fun e he => ?_⟩
        rcases List.mem_cons.mp he with rfl | he
        · exact BitVec.le_of_lt ‹_›
        · exact hx e he
      · refine ⟨List.mem_cons_self, fun e he => ?_⟩
        rcases List.mem_cons.mp he with rfl | he
        · exact BitVec.le_refl _
        · exact BitVec.le_trans (hx e he) (BitVec.not_lt.mp ‹_›)

/-- The stack of every channel after one channel's stack is written. -/
theorem setStack_stackOf (m : MidiState) (a b : BitVec 4) (st : List NoteEntry) :
    (m.setStack a st).stackOf b = if a = b then st else m.stackOf b := by
  split
  · subst b; exact setStack_get m a st
  · exact setStack_get_ne m ‹_› st

/-- What an element holds after a write: the number, if it fits (00_scope.md R8). -/
theorem holdsNat_fitNat (n v : Nat) : holdsNat (fitNat n v) v := fun h => if_pos h

theorem fitNat_eq {n v : Nat} (h : v < 2 ^ n) : fitNat n v = BitVec.ofNat n v := if_pos h

theorem fitNat_toNat {n v : Nat} (h : v < 2 ^ n) : (fitNat n v).toNat = v := by
  rw [fitNat_eq h, BitVec.toNat_ofNat, Nat.mod_eq_of_lt h]

/-- What a code holds after a write: the integer, if it fits (R8, R9). -/
theorem holdsCode_toCode (v : Int) : holdsCode (toCode v) v := fun h k => if_pos ⟨h, k⟩

/-- The code of a natural number that fits. -/
theorem toCode_natCast {n : Nat} (h : n ≤ 32767) : toCode (n : Int) = BitVec.ofNat 16 n := by
  rw [toCode, if_pos ⟨by omega, by omega⟩, BitVec.ofInt_natCast]

/-- A clamp to a range that is not empty (R8). -/
theorem clampNat_eq {lo hi : Nat} (v : Nat) (h : lo ≤ hi) :
    clampNat v lo hi = max lo (min v hi) := if_pos h

/-- A quotient by a divisor that is not 0 (R9). -/
theorem quotient_eq (a : Nat) {b : Nat} (h : b ≠ 0) : Config.quotient a b = a / b := if_neg h

end Sys2Proof.Machine
end

