-- ==== Sys2Proof/Laws/Dispatch.lean ====
section
/-! SUPPORT. The rule each status byte selects (42_midi_in.md R192, R194). -/

namespace Sys2Proof.Machine

/-- A type byte and a channel form the status byte of a voice message. -/
theorem status_or (typ mch : BitVec 4) : (typ ++ 0#4 : BitVec 8) ||| mch.setWidth 8 =
    voiceStatus typ mch := by
  revert typ mch; decide

theorem kind_noteOff (mch : BitVec 4) (d1 d2 : BitVec 7) :
    MidiMsg.kind ⟨0x80#8 ||| mch.setWidth 8, d1, d2⟩ = some (.noteOff mch) :=
  (by decide : ∀ c : BitVec 4,
    MidiMsg.kind ⟨0x80#8 ||| c.setWidth 8, 0, 0⟩ = some (.noteOff c)) mch

theorem kind_noteOn (mch : BitVec 4) (d1 d2 : BitVec 7) :
    MidiMsg.kind ⟨0x90#8 ||| mch.setWidth 8, d1, d2⟩ = some (.noteOn mch) :=
  (by decide : ∀ c : BitVec 4,
    MidiMsg.kind ⟨0x90#8 ||| c.setWidth 8, 0, 0⟩ = some (.noteOn c)) mch

theorem kind_atPoly (mch : BitVec 4) (d1 d2 : BitVec 7) :
    MidiMsg.kind ⟨0xA0#8 ||| mch.setWidth 8, d1, d2⟩ = some (.atPoly mch) :=
  (by decide : ∀ c : BitVec 4,
    MidiMsg.kind ⟨0xA0#8 ||| c.setWidth 8, 0, 0⟩ = some (.atPoly c)) mch

theorem kind_cc (mch : BitVec 4) (d1 d2 : BitVec 7) :
    MidiMsg.kind ⟨0xB0#8 ||| mch.setWidth 8, d1, d2⟩ = some (.cc mch) :=
  (by decide : ∀ c : BitVec 4,
    MidiMsg.kind ⟨0xB0#8 ||| c.setWidth 8, 0, 0⟩ = some (.cc c)) mch

theorem kind_atChan (mch : BitVec 4) (d1 d2 : BitVec 7) :
    MidiMsg.kind ⟨0xD0#8 ||| mch.setWidth 8, d1, d2⟩ = some (.atChan mch) :=
  (by decide : ∀ c : BitVec 4,
    MidiMsg.kind ⟨0xD0#8 ||| c.setWidth 8, 0, 0⟩ = some (.atChan c)) mch

theorem kind_pbend (mch : BitVec 4) (d1 d2 : BitVec 7) :
    MidiMsg.kind ⟨0xE0#8 ||| mch.setWidth 8, d1, d2⟩ = some (.pbend mch) :=
  (by decide : ∀ c : BitVec 4,
    MidiMsg.kind ⟨0xE0#8 ||| c.setWidth 8, 0, 0⟩ = some (.pbend c)) mch

/-- The type depends on the status byte only. -/
theorem kind_congr {m n : MidiMsg} (h : m.status = n.status) : m.kind = n.kind := by
  unfold MidiMsg.kind
  rw [h]

theorem kind_clock (d1 d2 : BitVec 7) : MidiMsg.kind ⟨0xF8#8, d1, d2⟩ = some .clock :=
  (kind_congr (m := ⟨0xF8#8, d1, d2⟩) (n := ⟨0xF8#8, 0, 0⟩) rfl).trans (by decide)

theorem kind_start (d1 d2 : BitVec 7) : MidiMsg.kind ⟨0xFA#8, d1, d2⟩ = some .start :=
  (kind_congr (m := ⟨0xFA#8, d1, d2⟩) (n := ⟨0xFA#8, 0, 0⟩) rfl).trans (by decide)

theorem kind_cont (d1 d2 : BitVec 7) : MidiMsg.kind ⟨0xFB#8, d1, d2⟩ = some .cont :=
  (kind_congr (m := ⟨0xFB#8, d1, d2⟩) (n := ⟨0xFB#8, 0, 0⟩) rfl).trans (by decide)

theorem kind_stop (d1 d2 : BitVec 7) : MidiMsg.kind ⟨0xFC#8, d1, d2⟩ = some .stop :=
  (kind_congr (m := ⟨0xFC#8, d1, d2⟩) (n := ⟨0xFC#8, 0, 0⟩) rfl).trans (by decide)

theorem kind_sysReset (d1 d2 : BitVec 7) :
    MidiMsg.kind ⟨0xFF#8, d1, d2⟩ = some .sysReset :=
  (kind_congr (m := ⟨0xFF#8, d1, d2⟩) (n := ⟨0xFF#8, 0, 0⟩) rfl).trans (by decide)

/-- A Clock message that reaches the divisor (R196). -/
theorem onClock_wrap (s : State) (h : s.midi.clkDiv.toNat ≤ s.midi.ppqnCnt.toNat + 1) :
    s.onClock = ({ s with midi := { s.midi with ppqnCnt := 0, clkTick := true } }).forOutputs
      (OutChannel.requestTrig .clock) := if_pos h

/-- A Clock message that does not reach the divisor (R196). -/
theorem onClock_count (s : State) (h : s.midi.ppqnCnt.toNat + 1 < s.midi.clkDiv.toNat) :
    s.onClock = { s with midi := { s.midi with ppqnCnt := s.midi.ppqnCnt + 1 } } :=
  if_neg (Nat.not_le.mpr h)

/-- The pedal goes down (R206). -/
theorem onCc_down (s : State) (mch : BitVec 4) (m : MidiMsg) (h : m.d1 = 64)
    (hv : 64 ≤ m.d2.toNat) : s.onCc mch m = s.sustainOn mch := (if_pos h).trans (if_pos hv)

/-- The pedal comes up (R207). -/
theorem onCc_up (s : State) (mch : BitVec 4) (m : MidiMsg) (h : m.d1 = 64)
    (hv : m.d2.toNat < 64) : s.onCc mch m = s.sustainOff mch :=
  (if_pos h).trans (if_neg (Nat.not_le.mpr hv))

/-- Any other controller (R208). -/
theorem onCc_other (s : State) (mch : BitVec 4) (m : MidiMsg) (h : m.d1 ≠ 64) :
    s.onCc mch m = s.forMatching mch (OutChannel.onCc s.cfg m.d1 m.d2) := if_neg h

/-- The pedal's release on a channel that holds no note lowers its gates (R207). -/
theorem sustainOff_empty (s : State) (mch : BitVec 4) (h : s.midi.stackOf mch = []) :
    s.sustainOff mch = ({ s with midi := { s.midi with
      sustain := clearSustain s.midi.sustain mch } }).forMatching mch OutChannel.gateOff :=
  if_pos (List.isEmpty_iff.mpr h)

/-- The pedal's release on a channel that holds notes clears the latch only (R207). -/
theorem sustainOff_held (s : State) (mch : BitVec 4) (h : s.midi.stackOf mch ≠ []) :
    s.sustainOff mch = { s with midi := { s.midi with
      sustain := clearSustain s.midi.sustain mch } } :=
  if_neg fun e => h (List.isEmpty_iff.mp e)

/-- Pressure on the most recent note (R210). -/
theorem onAtPoly_top (s : State) (mch : BitVec 4) (m : MidiMsg)
    (h : (lastNote (s.midi.stackOf mch)).map NoteEntry.note = some m.d1) :
    s.onAtPoly mch m = s.forMatching mch (OutChannel.onPressure s.cfg m.d2) := if_pos h

/-- Pressure on another note (R210). -/
theorem onAtPoly_other (s : State) (mch : BitVec 4) (m : MidiMsg)
    (h : (lastNote (s.midi.stackOf mch)).map NoteEntry.note ≠ some m.d1) :
    s.onAtPoly mch m = s := if_neg h

/-- A dispatched message: its log entry, then its rule. -/
theorem processMidi_some (s : State) (m : MidiMsg) (k : MsgKind) (h : m.kind = some k) :
    s.processMidi m = (s.logMessage k m).onKind k m := by
  simp [State.processMidi, h]

/-- A message of no dispatched type (R213). -/
theorem processMidi_none (s : State) (m : MidiMsg) (h : m.kind = none) : s.processMidi m = s := by
  simp [State.processMidi, h]

/-- The log update touches the log only. -/
theorem logMessage_eq (s : State) (k : MsgKind) (m : MidiMsg) :
    s.logMessage k m
      = { s with midi := { s.midi with log := (s.logMessage k m).midi.log } } := by
  cases k <;> rfl

/-- A message's rule leaves the log alone. -/
theorem onKind_log (s : State) (k : MsgKind) (m : MidiMsg) :
    (s.onKind k m).midi.log = s.midi.log := by
  cases k with
  | noteOff mch => simp only [State.onKind, State.onNoteOff]; split <;> rfl
  | noteOn mch => rfl
  | atPoly mch => simp only [State.onKind, State.onAtPoly]; split <;> rfl
  | cc mch =>
    simp only [State.onKind, State.onCc, State.sustainOn, State.sustainOff]
    split
    · split <;> split <;> rfl
    · rfl
  | atChan mch => rfl
  | pbend mch => rfl
  | clock => simp only [State.onKind, State.onClock]; split <;> rfl
  | start => rfl
  | cont => rfl
  | stop => rfl
  | sysReset => rfl

/-- Dispatch keeps every stack free of duplicates (10_state.md R38, 42_midi_in.md R214). -/
theorem processMidi_distinct (s : State) (m : MidiMsg)
    (h : ∀ mc, distinctNotes (s.midi.stackOf mc)) (mc : BitVec 4) :
    distinctNotes ((s.processMidi m).midi.stackOf mc) := by
  cases hk : m.kind with
  | none => rw [processMidi_none s m hk]; exact h mc
  | some k =>
    rw [processMidi_some s m k hk]
    have hs : (s.logMessage k m).midi.stackOf = s.midi.stackOf := by
      rw [logMessage_eq]; rfl
    cases k with
    | noteOff c =>
      simp only [State.onKind, State.onNoteOff]
      have e := setStack_stackOf (s.logMessage (.noteOff c) m).midi c mc
        (removeNote ((s.logMessage (.noteOff c) m).midi.stackOf c) m.d1)
      split
      · refine (congrArg distinctNotes e).mpr ?_
        rw [hs]
        split
        · exact removeNote_distinct _ _ (h c)
        · exact h mc
      · refine (congrArg distinctNotes e).mpr ?_
        rw [hs]
        split
        · exact removeNote_distinct _ _ (h c)
        · exact h mc
    | noteOn c =>
      refine (congrArg distinctNotes (setStack_stackOf (s.logMessage (.noteOn c) m).midi c mc
        (pushNote ((s.logMessage (.noteOn c) m).midi.stackOf c) m.d1 m.d2))).mpr ?_
      rw [hs]
      split
      · exact pushNote_distinct _ _ _ (h c)
      · exact h mc
    | atPoly c =>
      simp only [State.onKind, State.onAtPoly]
      split <;> exact h mc
    | cc c =>
      simp only [State.onKind, State.onCc, State.sustainOn, State.sustainOff]
      split
      · split <;> split <;> exact h mc
      · exact h mc
    | atChan c => exact h mc
    | pbend c => exact h mc
    | clock =>
      simp only [State.onKind, State.onClock]
      split <;> exact h mc
    | start => exact h mc
    | cont => exact h mc
    | stop | sysReset =>
      refine (congrArg distinctNotes (?_ : _ = ([] : List NoteEntry))).mpr List.nodup_nil
      simp [State.onKind, State.onStop, State.onSysReset, State.transportStop,
        State.clockMidiStop, State.stopActions, MidiState.stackOf, State.forOutputs]

end Sys2Proof.Machine
end

