-- ==== Sys2Proof/Laws/Tick.lean ====
section
/-! SUPPORT. What LOAD's and SEND's sub-steps leave, field by field and lane by lane. -/

namespace Sys2Proof.Machine

/-- The state LOAD drains the queue in: L1 to L4 done, the queue emptied (40_tick_phases.md R130). -/
def State.conditioned (s : State) : State :=
  let q := s.beginTick.clearOneTick.countdowns.condition
  { q with midi := { q.midi with rx := [] } }

/-- An output lane after L1 to L4. -/
def OutChannel.stepped (c : OutChannel) : OutChannel := c.clearFlags.clockDown.noteoffDown

theorem loadTick_eq (s : State) :
    s.loadTick = (s.midi.rx.foldl State.processMidi s.conditioned).clockStep := rfl

theorem conditioned_outs (s : State) :
    s.conditioned.outs = mapLive s.cfg.nout OutChannel.stepped s.outs :=
  mapLive_mapLive s.cfg.nout OutChannel.clearFlags (fun c => c.clockDown.noteoffDown) s.outs

theorem conditioned_ins (s : State) (ch : Nat) (h : ch < ninMax) :
    s.conditioned.ins[ch] = if ch < s.cfg.nin then
      s.ins[ch].lagDown.conditioned s.cfg s.inputs.gateIn[ch] s.inputs.adc[ch]
      else s.ins[ch] := by
  have e : s.conditioned.ins = s.beginTick.clearOneTick.countdowns.condition.ins := rfl
  rw [getElem_congr_coll e, condition_get]
  by_cases hn : ch < s.cfg.nin <;>
    simp [State.countdowns, State.clearOneTick, State.beginTick, State.forOutputs, State.emit, hn]

theorem clearFlags_releases (c : OutChannel) : c.clearFlags.releases = c.releases := rfl

theorem clearFlags_noteOffMsg (c : OutChannel) : c.clearFlags.noteOffMsg = c.noteOffMsg := rfl

theorem take_mapLive (n : Nat) (f : OutChannel → OutChannel) (v : Vector OutChannel noutMax) :
    (mapLive n f v).toList.take n = (v.toList.take n).map f := by
  apply List.ext_getElem
  · simp
  · intro i h1 h2
    have hi : i < n := by simp at h1; omega
    have hv : i < noutMax := by simp at h1; omega
    have e := mapLive_get n f v i hv
    rw [if_pos hi] at e
    simpa using e

/-- Messages a pass emits do not see the flags the pass before it cleared. -/
theorem emitsLive_mapLive (n : Nat) (g : OutChannel → OutChannel) (f : OutChannel → List OutMsg)
    (hf : ∀ c, f (g c) = f c) (v : Vector OutChannel noutMax) :
    emitsLive n f (mapLive n g v) = emitsLive n f v := by
  simp only [emitsLive, take_mapLive, List.flatMap_map, hf]

/-- The outbound list after L1 to L4: the Note-Offs of the expiring countdowns (R134). -/
theorem conditioned_tx (s : State) : s.conditioned.midi.tx = s.midi.tx ++ s.releaseMsgs := by
  have h : s.beginTick.clearOneTick.releaseMsgs = s.releaseMsgs :=
    emitsLive_mapLive s.cfg.nout OutChannel.clearFlags
      (fun c => if c.releases then [c.noteOffMsg] else []) (fun _ => rfl) s.outs
  exact congrArg (s.midi.tx ++ ·) h

theorem conditioned_midi (s : State) :
    s.conditioned.midi = { s.midi with
      clkTick := false, tx := s.midi.tx ++ s.releaseMsgs, rx := [] } := by
  rw [← conditioned_tx]; rfl

/-- Everything L1 to L4 leave alone (40_tick_phases.md R131 to R137). -/
theorem conditioned_frame (s : State) :
    s.conditioned = { s with
      tickCount := s.tickCount + 1, phase := .process, ins := s.conditioned.ins,
      outs := s.conditioned.outs, midi := s.conditioned.midi } := by
  simp only [State.conditioned, State.condition, State.countdowns, State.clearOneTick,
    State.beginTick, State.emit, State.forOutputs]

theorem conditioned_clk (s : State) : s.conditioned.clk = s.clk := by rw [conditioned_frame]

theorem conditioned_cfg (s : State) : s.conditioned.cfg = s.cfg := by rw [conditioned_frame]

/-- LOAD, split where its rules split: L1 to L4, then the drain, then the clock step. -/
theorem loadTick_split (s : State) :
    ∃ d, DrainFrame s.conditioned d ∧ EngineFrame d s.loadTick ∧ s.loadTick = d.clockStep
      ∧ (s.midi.rx = [] → d = s.conditioned) :=
  ⟨_, foldl_processMidi_frame s.midi.rx s.conditioned, clockStep_frame _, rfl,
    fun h => by rw [h]; rfl⟩

/-- Everything `exec` can answer to LOAD. -/
theorem execLoad_cases {s t : State} (h : execLoad s = .next t) :
    (s.phase = .idle ∧ t = s.loadTick.respond 0)
    ∨ (s.phase = .process ∧ t = s.raise .badOrder (encode .load)) := by
  unfold execLoad at h
  split at h <;> simp_all

/-- What the outbound note path does to a lane (43_midi_query_out.md R243). -/
theorem notePath_get (s : State) (ch : Nat) (h : ch < noutMax) :
    s.notePath.outs[ch] = s.outs[ch].afterAction s.midi.moHold (s.actionAt ch s.outs[ch]) := by
  simp [State.notePath]

/-- What the outbound note path appends: each channel's messages, ascending (R243, R244). -/
theorem notePath_tx (s : State) :
    s.notePath.midi.tx = s.midi.tx ++
      (s.outs.toList.mapIdx fun ch c => actionMsgs s.cfg c (s.actionAt ch c)).flatten := rfl

/-- What an action leaves alone in its lane (R244, R245). -/
theorem afterAction_lane (hold : BitVec 16) (c : OutChannel) (a : PathAction) :
    c.afterAction hold a = { c with
      sndValid := (c.afterAction hold a).sndValid, sndNote := (c.afterAction hold a).sndNote,
      sndChan := (c.afterAction hold a).sndChan,
      noteoffCd := (c.afterAction hold a).noteoffCd } := by
  cases a <;> rfl

/-- Only a note output acts (R243). -/
theorem actionAt_quiet (s : State) (ch : Nat) (c : OutChannel) (h : c.moFn ≠ .note) :
    s.actionAt ch c = .quiet := by
  unfold State.actionAt pathAction
  cases hc : c.moFn <;> simp_all

/-- A channel that does not exist does not act (R243). -/
theorem actionAt_dead (s : State) (ch : Nat) (c : OutChannel) (h : s.cfg.nout ≤ ch) :
    s.actionAt ch c = .quiet := by
  simp [State.actionAt, Nat.not_lt.mpr h]

/-- The state in which SEND drives the messages: S1 and S2 done (40_tick_phases.md R140). -/
theorem outboundPath_cases (s : State) :
    (s.midi.autoOut = true ∧ s.outboundPath = s.notePath)
    ∨ (s.midi.autoOut = false ∧ s.outboundPath = s) := by
  unfold State.outboundPath
  cases h : s.midi.autoOut <;> simp

theorem sendTick_eq (s : State) :
    s.sendTick = s.driveDacs.outboundPath.driveMidi.endTick := rfl

/-- The outbound path leaves alone all but the lanes and the outbound list. -/
theorem outboundPath_frame (s : State) :
    s.outboundPath = { s with
      outs := s.outboundPath.outs, midi := { s.midi with tx := s.outboundPath.midi.tx } } := by
  rcases outboundPath_cases s with ⟨-, h⟩ | ⟨-, h⟩
  · rw [h]; rfl
  · rw [h]

/-- A lane after the outbound path. -/
theorem outboundPath_get (s : State) (ch : Nat) (h : ch < noutMax) :
    s.outboundPath.outs[ch] =
      if s.midi.autoOut then s.outs[ch].afterAction s.midi.moHold (s.actionAt ch s.outs[ch])
      else s.outs[ch] := by
  rcases outboundPath_cases s with ⟨ha, e⟩ | ⟨ha, e⟩
  · rw [getElem_congr_coll (congrArg State.outs e), notePath_get, if_pos ha]
  · rw [getElem_congr_coll (congrArg State.outs e), if_neg (by simp [ha])]

/-- A lane after SEND. -/
theorem sendTick_get (s : State) (ch : Nat) (h : ch < noutMax) :
    s.sendTick.outs[ch] =
      if ch < s.cfg.nout then
        { s.driveDacs.outboundPath.outs[ch] with
          prevOut := s.driveDacs.outboundPath.outs[ch].out }
      else s.driveDacs.outboundPath.outs[ch] := by
  have hc : s.driveDacs.outboundPath.driveMidi.cfg.nout = s.cfg.nout := by
    rw [driveMidi_cfg, outboundPath_frame]; rfl
  have e := mapLive_get s.driveDacs.outboundPath.driveMidi.cfg.nout
    (fun c => { c with prevOut := c.out }) s.driveDacs.outboundPath.driveMidi.outs ch h
  by_cases hn : ch < s.cfg.nout
  · rw [if_pos hn]
    rw [if_pos (hc ▸ hn)] at e
    exact e
  · rw [if_neg hn]
    rw [if_neg (hc ▸ hn)] at e
    exact e

theorem sendTick_dac (s : State) : s.sendTick.dac = s.driveDacs.dac := by
  rw [sendTick_eq, endTick_dac, driveMidi_dac, outboundPath_frame]

theorem sendTick_midiOut (s : State) :
    s.sendTick.midiOut = s.driveDacs.outboundPath.midi.tx := rfl

end Sys2Proof.Machine
end

