-- ==== Sys2Proof/Laws/Step.lean ====
section
/-! SUPPORT. Everything a fetch and a step can do. -/

namespace Sys2Proof.Machine

/-- A step with nothing presented. -/
theorem step_idle (s : State) (h : s.pending = []) : step s = .next s := by
  simp [step, State.fetch, h]

/-- A step under parameters a model refuses. -/
theorem step_illegal (s : State) (h : s.pending ≠ []) (hl : s.cfg.accepted = false) :
    step s = .refused .illegalConfiguration := by
  cases hp : s.pending with
  | nil => exact absurd hp h
  | cons e rest => simp [step, State.fetch, hp, hl]

/-- A step on the assertion of RESET. -/
theorem step_assert (s : State) (rest : List HostEvent) (hl : s.cfg.accepted = true)
    (hp : s.pending = .assertReset :: rest) :
    step s = .next { s with pending := rest, resetAsserted := true } := by
  simp [step, State.fetch, hp, hl, State.receive]

/-- A step on the release of RESET. -/
theorem step_release (s : State) (rest : List HostEvent) (hl : s.cfg.accepted = true)
    (ha : s.resetAsserted = true) (hp : s.pending = .releaseReset :: rest) :
    step s = .next { State.resetWith s.cfg with pending := rest, inputs := s.inputs } := by
  simp [step, State.fetch, hp, hl, State.receive, State.afterReset, ha]

/-- A release where RESET was not asserted does nothing. -/
theorem step_release_idle (s : State) (rest : List HostEvent) (hl : s.cfg.accepted = true)
    (ha : s.resetAsserted = false) (hp : s.pending = .releaseReset :: rest) :
    step s = .next { s with pending := rest } := by
  simp [step, State.fetch, hp, hl, State.receive, ha]

/-- A step on a command word while RESET is asserted. -/
theorem step_ignored (s : State) (w : Word) (inputs : Inputs) (rest : List HostEvent)
    (hl : s.cfg.accepted = true) (ha : s.resetAsserted = true)
    (hp : s.pending = .command w inputs :: rest) : step s = .next { s with pending := rest } := by
  simp [step, State.fetch, hp, hl, State.receive, ha]

/-- A step on a command word. -/
theorem step_command (s : State) (w : Word) (inputs : Inputs) (rest : List HostEvent)
    (hl : s.cfg.accepted = true) (ha : s.resetAsserted = false)
    (hp : s.pending = .command w inputs :: rest) :
    step s = match ({ s with pending := rest, inputs := inputs }).present w with
      | .done t => .next t
      | .run i t => exec i t
      | .refuse r => .refused r := by
  have e : s.fetch = ({ s with pending := rest, inputs := inputs }).present w := by
    simp [State.fetch, hp, hl, State.receive, ha]
  unfold step
  rw [e] <;> rfl

/-- Everything the presentation of a word can do. -/
theorem present_cases (s : State) (w : Word) :
    (s.fault.code ≠ .none ∧ s.present w = .done (s.respond allOnes))
    ∨ (s.fault.code = .none ∧ ∃ i, decode w = .ok i ∧ s.present w = .run i s)
    ∨ (s.fault.code = .none ∧ ∃ e, decode w = .error e
        ∧ s.present w = .done (s.raise .illegalCommand w)) := by
  unfold State.present State.faulted
  by_cases h : s.fault.code = .none
  · cases hd : decode w with
    | ok i => exact .inr (.inl ⟨h, i, rfl, by simp [h]⟩)
    | error e => exact .inr (.inr ⟨h, e, rfl, by simp [h]⟩)
  · exact .inl ⟨h, by simp [h, State.ignoreCommand]⟩

/-- Everything a step can do that ends in a next state: nothing, an event of the RESET port, an ignored
command, an illegal word, or a decoded command. -/
theorem step_cases {s t : State} (h : step s = .next t) :
    (s.pending = [] ∧ t = s)
    ∨ (s.cfg.accepted = true ∧ ∃ e rest, s.pending = e :: rest ∧
        ((e = .assertReset ∧ t = { s with pending := rest, resetAsserted := true })
        ∨ (e = .releaseReset ∧ s.resetAsserted = true
            ∧ t = { State.resetWith s.cfg with pending := rest, inputs := s.inputs })
        ∨ (e = .releaseReset ∧ s.resetAsserted = false ∧ t = { s with pending := rest })
        ∨ ∃ w inputs, e = .command w inputs ∧
          let q := { s with pending := rest, inputs := inputs }
          (s.resetAsserted = true ∧ t = { s with pending := rest })
          ∨ (s.resetAsserted = false ∧ s.fault.code ≠ .none ∧ t = q.respond allOnes)
          ∨ (s.resetAsserted = false ∧ s.fault.code = .none ∧ (∃ e, decode w = .error e)
              ∧ t = q.raise .illegalCommand w)
          ∨ (s.resetAsserted = false ∧ s.fault.code = .none
              ∧ ∃ i, decode w = .ok i ∧ exec i q = .next t))) := by
  cases hp : s.pending with
  | nil =>
    rw [step_idle s hp] at h
    exact .inl ⟨rfl, (Host.Outcome.next.inj h).symm⟩
  | cons e rest =>
    cases hl : s.cfg.accepted with
    | false =>
      rw [step_illegal s (by simp [hp]) hl] at h
      cases h
    | true =>
      refine .inr ⟨rfl, e, rest, rfl, ?_⟩
      cases e with
      | assertReset =>
        rw [step_assert s rest hl hp] at h
        exact .inl ⟨rfl, (Host.Outcome.next.inj h).symm⟩
      | releaseReset =>
        rcases Bool.eq_false_or_eq_true s.resetAsserted with ha | ha
        · rw [step_release s rest hl ha hp] at h
          exact .inr (.inl ⟨rfl, ha, (Host.Outcome.next.inj h).symm⟩)
        · rw [step_release_idle s rest hl ha hp] at h
          exact .inr (.inr (.inl ⟨rfl, ha, (Host.Outcome.next.inj h).symm⟩))
      | command w inputs =>
        refine .inr (.inr (.inr ⟨w, inputs, rfl, ?_⟩))
        rcases Bool.eq_false_or_eq_true s.resetAsserted with ha | ha
        · rw [step_ignored s w inputs rest hl ha hp] at h
          exact .inl ⟨ha, (Host.Outcome.next.inj h).symm⟩
        · rw [step_command s w inputs rest hl ha hp] at h
          refine .inr ?_
          rcases present_cases { s with pending := rest, inputs := inputs } w with
            ⟨hf, hq⟩ | ⟨hf, i, hi, hq⟩ | ⟨hf, e, he, hq⟩ <;> rw [hq] at h
          · exact .inl ⟨ha, hf, (Host.Outcome.next.inj h).symm⟩
          · exact .inr (.inr ⟨ha, hf, i, hi, h⟩)
          · exact .inr (.inl ⟨ha, hf, ⟨e, he⟩, (Host.Outcome.next.inj h).symm⟩)

end Sys2Proof.Machine
end

