-- ==== Sys2Proof/Laws/Exec.lean ====
section
/-! SUPPORT. Everything a command can do, said once for all commands (`exec_cases`). -/

namespace Sys2Proof.Machine

/-- The effects of a command that raises no fault, one case per kind of command. -/
inductive Effect (s : State) : Instr → State → Prop where
  | load (h : s.phase = .idle) : Effect s .load (s.loadTick.respond 0)
  | send (h : s.phase = .process) : Effect s .send (s.sendTick.respond 0)
  | midi (i : Instr) (m : MidiMsg) (h : i.isQuery = false) (hp : i.legalPhase = none) :
      Effect s i (s.enqueue m)
  | query (i : Instr) (w : Word) (h : i.isQuery = true) : Effect s i (s.respond w)
  | out (idx : BitVec 4) (imm : BitVec 16) (c : OutChannel) (h : s.phase = .process)
      (hc : s.outLane idx = some c) :
      Effect s (.out idx imm) ((s.setOut idx.toNat (c.write s.cfg imm)).respond 0)
  | skip (idx : BitVec 4) (imm : BitVec 16) (c : OutChannel) (h : s.phase = .process)
      (hc : s.outLane idx = some c) (hk : s.skipsPulse = true) :
      Effect s (.clkout idx imm) (s.afterDraw.respond 1)
  | pulse (idx : BitVec 4) (imm : BitVec 16) (c : OutChannel) (h : s.phase = .process)
      (hc : s.outLane idx = some c) (hk : s.skipsPulse = false) :
      Effect s (.clkout idx imm) ((s.afterDraw.setOut idx.toNat (c.pulse s.cfg imm)).respond 0)
  | startlag (idx : BitVec 4) (c : InChannel) (h : s.phase = .process)
      (hc : s.inLane idx = some c) :
      Effect s (.startlag idx)
        ((s.setIn idx { c with lagCd := fitNat 8 s.cfg.adcLagTicks }).respond 0)
  | playstop (h : s.phase = .process) : Effect s .playstop (s.togglePlay.respond 0)
  | tap (h : s.phase = .process) :
      Effect s .tap (({ s with clk := s.clk.tapPress s.cfg s.tickCount }).respond 0)
  | cfgw (addr : BitVec 8) (val : BitVec 16) (r : Reg) (hr : regAt s.cfg.nout addr = some r)
      (hw : r.writable = true) (hv : legalValue s.cfg r val = true) :
      Effect s (.cfgw addr val) ((writeReg r val s).respond 0)

theorem queryIn_cases {i : Instr} {idx : BitVec 4} {s t : State} {answer : InChannel → Word}
    (hq : i.isQuery = true) (h : queryIn i idx s answer = .next t) :
    (∃ code, code ≠ .none ∧ t = s.raise code (encode i)) ∨ Effect s i t := by
  rcases indexed_cases h with ⟨-, rfl⟩ | ⟨-, -, rfl⟩ | ⟨-, c, -, rfl⟩
  · exact .inl ⟨_, by decide, rfl⟩
  · exact .inl ⟨_, by decide, rfl⟩
  · exact .inr (.query i _ hq)

theorem queryOut_cases {i : Instr} {idx : BitVec 4} {s t : State} {answer : OutChannel → Word}
    (hq : i.isQuery = true) (h : queryOut i idx s answer = .next t) :
    (∃ code, code ≠ .none ∧ t = s.raise code (encode i)) ∨ Effect s i t := by
  rcases indexed_cases h with ⟨-, rfl⟩ | ⟨-, -, rfl⟩ | ⟨-, c, -, rfl⟩
  · exact .inl ⟨_, by decide, rfl⟩
  · exact .inl ⟨_, by decide, rfl⟩
  · exact .inr (.query i _ hq)

theorem queryMidi_cases {i : Instr} {s t : State} {w : Word} (hq : i.isQuery = true)
    (h : queryMidi i s w = .next t) :
    (∃ code, code ≠ .none ∧ t = s.raise code (encode i)) ∨ Effect s i t := by
  rcases inProcess_cases h with ⟨-, rfl⟩ | ⟨-, rfl⟩
  · exact .inl ⟨_, by decide, rfl⟩
  · exact .inr (.query i _ hq)

theorem enqueue_cases {i : Instr} {m : MidiMsg} {s t : State} (hq : i.isQuery = false)
    (hp : i.legalPhase = none) (h : (.next (s.enqueue m) : Result) = .next t) :
    (∃ code, code ≠ .none ∧ t = s.raise code (encode i)) ∨ Effect s i t := by
  cases h
  exact .inr (.midi i m hq hp)

/-- Everything a command can answer: a fault that changes nothing else, or one of the effects. -/
theorem exec_cases {i : Instr} {s t : State} (h : exec i s = .next t) :
    (∃ code, code ≠ .none ∧ t = s.raise code (encode i)) ∨ Effect s i t := by
  cases i
  case load =>
    rcases execLoad_cases h with ⟨hp, rfl⟩ | ⟨-, rfl⟩
    · exact .inr (.load hp)
    · exact .inl ⟨_, by decide, rfl⟩
  case send =>
    rcases inProcess_cases h with ⟨-, rfl⟩ | ⟨hp, rfl⟩
    · exact .inl ⟨_, by decide, rfl⟩
    · exact .inr (.send hp)
  case readIn | gate | clock | tsc | changed | lastcv | islag => exact queryIn_cases rfl h
  case loop | outq | mout | mtrig | tock => exact queryOut_cases rfl h
  case nlast | nmin | nmax | nfirst | susq | nsize => exact queryMidi_cases rfl h
  case mNoteoff | mNoteon | mAtpoly | mCc | mAtchan | mPbend | mClock | mStart | mCont | mStop
      | mReset | mOther =>
    exact enqueue_cases rfl rfl h
  case out idx imm =>
    rcases indexed_cases h with ⟨-, rfl⟩ | ⟨-, -, rfl⟩ | ⟨hp, c, hc, rfl⟩
    · exact .inl ⟨_, by decide, rfl⟩
    · exact .inl ⟨_, by decide, rfl⟩
    · exact .inr (.out idx imm c hp hc)
  case clkout idx imm =>
    rcases indexed_cases h with ⟨-, rfl⟩ | ⟨-, -, rfl⟩ | ⟨hp, c, hc, rfl⟩
    · exact .inl ⟨_, by decide, rfl⟩
    · exact .inl ⟨_, by decide, rfl⟩
    · cases hk : s.skipsPulse
      · simpa [hk] using Or.inr (Effect.pulse idx imm c hp hc hk)
      · simpa [hk] using Or.inr (Effect.skip idx imm c hp hc hk)
  case startlag idx =>
    rcases indexed_cases h with ⟨-, rfl⟩ | ⟨-, -, rfl⟩ | ⟨hp, c, hc, rfl⟩
    · exact .inl ⟨_, by decide, rfl⟩
    · exact .inl ⟨_, by decide, rfl⟩
    · exact .inr (.startlag idx c hp hc)
  case logr idx =>
    rcases indexed_cases h with ⟨-, rfl⟩ | ⟨-, -, rfl⟩ | ⟨-, c, -, rfl⟩
    · exact .inl ⟨_, by decide, rfl⟩
    · exact .inl ⟨_, by decide, rfl⟩
    · exact .inr (.query _ _ rfl)
  case playstop =>
    rcases inProcess_cases h with ⟨-, rfl⟩ | ⟨hp, rfl⟩
    · exact .inl ⟨_, by decide, rfl⟩
    · exact .inr (.playstop hp)
  case tap =>
    rcases inProcess_cases h with ⟨-, rfl⟩ | ⟨hp, rfl⟩
    · exact .inl ⟨_, by decide, rfl⟩
    · exact .inr (.tap hp)
  case cfgw addr val =>
    rcases execCfgw_cases h with rfl | rfl | ⟨r, hr, hw, hv, rfl⟩
    · exact .inl ⟨_, by decide, rfl⟩
    · exact .inl ⟨_, by decide, rfl⟩
    · exact .inr (.cfgw addr val r hr hw hv)
  case cfgr addr =>
    rcases execCfgr_cases h with rfl | ⟨r, -, rfl⟩
    · exact .inl ⟨_, by decide, rfl⟩
    · exact .inr (.query _ _ rfl)

/-- A lane after one lane is written. -/
theorem setOut_get (s : State) (i : Nat) (c : OutChannel) (ch : Nat) (h : ch < noutMax) :
    (s.setOut i c).outs[ch] = if i = ch then c else s.outs[ch] := by
  simp only [setOut_outs]
  rw [Vector.getElem_setIfInBounds]

/-- The lane an index selects. -/
theorem outLane_some {s : State} {idx : BitVec 4} {c : OutChannel} (h : s.outLane idx = some c) :
    ∃ hi : idx.toNat < noutMax, idx.toNat < s.cfg.nout ∧ c = s.outs[idx.toNat] := by
  unfold State.outLane at h
  split at h
  · obtain ⟨h1, h2⟩ := Vector.getElem?_eq_some_iff.mp h
    exact ⟨h1, ‹_›, h2.symm⟩
  · cases h

/-- A draw changes the draw counter alone (41_frame_io.md R172). -/
theorem afterDraw_eq (s : State) : s.afterDraw = { s with rngDraws := s.afterDraw.rngDraws } := by
  unfold State.afterDraw
  split <;> rfl

/-- What `PLAYSTOP` leaves alone (44_clock_engine.md R262, R267, R268). -/
theorem togglePlay_frame (s : State) : s.togglePlay = { s with
    outs := s.togglePlay.outs, clk := { s.clk with
      state := s.togglePlay.clk.state, beatPos := s.togglePlay.clk.beatPos
      beatCount := s.togglePlay.clk.beatCount, sinceSync := s.togglePlay.clk.sinceSync
      syncSeen := s.togglePlay.clk.syncSeen, syncCnt := s.togglePlay.clk.syncCnt } } := by
  unfold State.togglePlay
  split <;> rfl

/-- What `PLAYSTOP` leaves alone in a lane. -/
theorem togglePlay_get (s : State) (ch : Nat) (h : ch < noutMax) :
    s.togglePlay.outs[ch] = { s.outs[ch] with
      pulsePar := s.togglePlay.outs[ch].pulsePar, shufCd := s.togglePlay.outs[ch].shufCd }
    ∧ (s.togglePlay.outs[ch].shufCd = s.outs[ch].shufCd ∨ s.togglePlay.outs[ch].shufCd = 0) := by
  generalize ht : s.togglePlay = t
  unfold State.togglePlay at ht
  split at ht <;> subst ht
  · have e : ((s.setClkState .stopped).stopActions).outs[ch] = _ :=
      mapLive_get s.cfg.nout (fun c : OutChannel => { c with shufCd := 0 }) s.outs ch h
    rw [e]
    split <;> simp
  · exact ⟨rfl, .inl rfl⟩
  · have e : ((s.setClkState .running).startActions).outs[ch] = _ :=
      mapLive_get s.cfg.nout (fun c : OutChannel => { c with pulsePar := false, shufCd := 0 }) s.outs ch h
    rw [e]
    split <;> simp

/-- A lane after SEND, from the state before it. -/
theorem sendTick_lane (s : State) (ch : Nat) (h : ch < noutMax) :
    s.sendTick.outs[ch] =
      { (if s.midi.autoOut then s.outs[ch].afterAction s.midi.moHold (s.actionAt ch s.outs[ch])
          else s.outs[ch]) with
        prevOut := if ch < s.cfg.nout then s.outs[ch].out else s.outs[ch].prevOut } := by
  rw [sendTick_get]
  have e : (if s.midi.autoOut then s.outs[ch].afterAction s.midi.moHold (s.actionAt ch s.outs[ch])
      else s.outs[ch]) = s.driveDacs.outboundPath.outs[ch] :=
    (outboundPath_get s.driveDacs ch h).symm
  rw [← e]
  split <;> split <;> first | rfl | rw [afterAction_lane]

/-- What SEND leaves alone (40_tick_phases.md R140). -/
theorem sendTick_frame (s : State) : s.sendTick = { s with
    dac := s.sendTick.dac, midiOut := s.sendTick.midiOut, outs := s.sendTick.outs, phase := .idle
    midi := { s.midi with tx := [] } } := by
  rw [sendTick_eq]
  unfold State.outboundPath
  split <;> rfl

/-- A tick without a sync pulse (44_clock_engine.md R270). -/
theorem noPulse_clocked {s : State} (h : s.noPulse) : s.syncClocked = false := by
  unfold State.syncClocked State.inLaneAt
  split
  · rename_i c hc
    split at hc
    · exact h ‹_› c hc
    · cases hc
  · rfl

/-- A tick with a sync pulse. -/
theorem syncClocked_of {s : State} {c : InChannel} (hn : s.clk.syncSrc.toNat < s.cfg.nin)
    (h : s.ins[s.clk.syncSrc.toNat]? = some c) (hc : c.clocked = true) : s.syncClocked = true := by
  unfold State.syncClocked State.inLaneAt
  rw [if_pos hn, h]
  exact hc

end Sys2Proof.Machine
end

