-- ==== Sys2Proof/Laws/Params.lean ====
section
/-! SUPPORT. What a legal parameter set says, in plain numbers. -/

namespace Sys2Proof

/-- The conditions of `Config.legal`, each under a name. -/
structure Config.Legal (c : Config) : Prop where
  accepted : c.accepted = true
  nout : 4 ≤ c.nout ∧ c.nout ≤ 8
  debounceTicks : 1 ≤ c.debounceTicks ∧ c.debounceTicks ≤ 256
  rxqDepth : 1 ≤ c.rxqDepth ∧ c.rxqDepth ≤ 255
  multPosOffset : c.multPosOffset ≤ 1
  lanes : c.nin ≤ 4 ∧ c.ndac ≤ 4
  noteStacks : c.nmidi = 16 ∧ 128 ≤ c.stackMax
  adcLagTicks : c.adcLagTicks ≤ 255
  logDepth : 1 ≤ c.logDepth
  midiPpqn : 1 ≤ c.midiPpqn
  tapN : 1 ≤ c.tapN
  scale : 1 ≤ c.codesPerSemitone
  noteRange : c.noteCvZero * c.codesPerSemitone ≤ 32768
    ∧ 127 * c.codesPerSemitone ≤ 32767 + c.noteCvZero * c.codesPerSemitone
  codes : c.gateHighCode ≤ 32767 ∧ c.cvMax ≤ 32767
  trigPulse : c.trigPulseTicks ≤ 65535
  bpm : 1 ≤ c.bpmMin ∧ c.bpmMin ≤ 120 ∧ 120 ≤ c.bpmMax ∧ c.bpmMax ≤ 511
  beat : 1 ≤ c.btMin ∧ c.btMax < 2 ^ 20
  percent : c.shuffleMax ≤ 99 ∧ c.moVelocity ≤ 255

theorem Config.legal_elim {c : Config} (h : c.legal = true) : c.Legal := by
  simp only [Config.legal, Bool.and_eq_true, decide_eq_true_eq] at h
  obtain ⟨⟨⟨⟨⟨⟨⟨⟨⟨⟨⟨⟨⟨⟨ha, h2⟩, h3⟩, h4⟩, h5⟩, h6⟩, h7⟩, h8⟩, h9⟩, h10⟩, h11⟩, h12⟩, h13⟩, h14⟩, h15⟩ :=
    h
  have a := ha
  simp only [Config.accepted, Bool.and_eq_true, decide_eq_true_eq] at a
  obtain ⟨⟨⟨a1, a2⟩, a3⟩, a4⟩ := a
  exact ⟨ha, a1, ⟨a2, h4⟩, a3, a4, h2, h3, h5, h6, h7, h8, h9, h10, h11, h12, h13, h14, h15⟩

/-- The beat of a legal tempo lies in the range of beats (00_scope.md R7). -/
theorem Config.beat_in_range (c : Config) {b : Nat} (h1 : 1 ≤ c.bpmMin) (hl : c.bpmMin ≤ b)
    (hu : b ≤ c.bpmMax) : c.btMin ≤ c.ticksPerMin / b ∧ c.ticksPerMin / b ≤ c.btMax := by
  unfold Config.btMin Config.btMax Config.quotient
  rw [if_neg (by omega), if_neg (by omega)]
  exact ⟨Nat.div_le_div_left hu (Nat.le_trans h1 hl), Nat.div_le_div_left hl h1⟩

end Sys2Proof
end

