-- ==== Sys2Proof/Laws/PerInstr.lean ====
section
/-! SUPPORT. Statements made per instruction. Family `OpcodeByte`: the opcode byte of every
instruction's word is the one 30_encoding.md R107 gives it. -/

namespace Sys2Proof.Laws

/-- The opcode byte of each row of R107. -/
def opcodeOf : Instr → BitVec 8
  | .load => 0x01
  | .send => 0x02
  | .mNoteoff _ _ _ => 0x10
  | .mNoteon _ _ _ => 0x10
  | .mAtpoly _ _ _ => 0x10
  | .mCc _ _ _ => 0x10
  | .mAtchan _ _ _ => 0x10
  | .mPbend _ _ _ => 0x10
  | .mClock _ _ => 0x10
  | .mStart _ _ => 0x10
  | .mCont _ _ => 0x10
  | .mStop _ _ => 0x10
  | .mReset _ _ => 0x10
  | .mOther _ _ _ => 0x10
  | .readIn _ => 0x20
  | .gate _ => 0x21
  | .clock _ => 0x22
  | .tsc _ => 0x23
  | .changed _ => 0x24
  | .lastcv _ => 0x25
  | .islag _ => 0x26
  | .loop _ => 0x27
  | .outq _ => 0x28
  | .out _ _ => 0x30
  | .clkout _ _ => 0x31
  | .startlag _ => 0x32
  | .nlast _ => 0x40
  | .nmin _ => 0x41
  | .nmax _ => 0x42
  | .nfirst _ => 0x43
  | .susq _ => 0x44
  | .nsize _ => 0x45
  | .mout _ => 0x46
  | .mtrig _ => 0x47
  | .logr _ => 0x48
  | .playstop => 0x50
  | .tap => 0x51
  | .tock _ => 0x52
  | .cfgw _ _ => 0x60
  | .cfgr _ => 0x61

/-- The word of the instruction carries its opcode byte. -/
def OpcodeByte.Statement (i : Instr) : Prop := opByte (encode i) = opcodeOf i

theorem OpcodeByte.load :
    OpcodeByte.Statement (.load) := opByte_wordZ _

theorem OpcodeByte.send :
    OpcodeByte.Statement (.send) := opByte_wordZ _

theorem OpcodeByte.mNoteoff (mch : BitVec 4) (d1 d2 : BitVec 7) :
    OpcodeByte.Statement (.mNoteoff mch d1 d2) := opByte_wordM _ _ _

theorem OpcodeByte.mNoteon (mch : BitVec 4) (d1 d2 : BitVec 7) :
    OpcodeByte.Statement (.mNoteon mch d1 d2) := opByte_wordM _ _ _

theorem OpcodeByte.mAtpoly (mch : BitVec 4) (d1 d2 : BitVec 7) :
    OpcodeByte.Statement (.mAtpoly mch d1 d2) := opByte_wordM _ _ _

theorem OpcodeByte.mCc (mch : BitVec 4) (d1 d2 : BitVec 7) :
    OpcodeByte.Statement (.mCc mch d1 d2) := opByte_wordM _ _ _

theorem OpcodeByte.mAtchan (mch : BitVec 4) (d1 d2 : BitVec 7) :
    OpcodeByte.Statement (.mAtchan mch d1 d2) := opByte_wordM _ _ _

theorem OpcodeByte.mPbend (mch : BitVec 4) (d1 d2 : BitVec 7) :
    OpcodeByte.Statement (.mPbend mch d1 d2) := opByte_wordM _ _ _

theorem OpcodeByte.mClock (d1 d2 : BitVec 7) :
    OpcodeByte.Statement (.mClock d1 d2) := opByte_wordM _ _ _

theorem OpcodeByte.mStart (d1 d2 : BitVec 7) :
    OpcodeByte.Statement (.mStart d1 d2) := opByte_wordM _ _ _

theorem OpcodeByte.mCont (d1 d2 : BitVec 7) :
    OpcodeByte.Statement (.mCont d1 d2) := opByte_wordM _ _ _

theorem OpcodeByte.mStop (d1 d2 : BitVec 7) :
    OpcodeByte.Statement (.mStop d1 d2) := opByte_wordM _ _ _

theorem OpcodeByte.mReset (d1 d2 : BitVec 7) :
    OpcodeByte.Statement (.mReset d1 d2) := opByte_wordM _ _ _

theorem OpcodeByte.mOther (status : BitVec 8) (d1 d2 : BitVec 7) :
    OpcodeByte.Statement (.mOther status d1 d2) := opByte_wordM _ _ _

theorem OpcodeByte.readIn (idx : BitVec 4) :
    OpcodeByte.Statement (.readIn idx) := opByte_wordC _ _

theorem OpcodeByte.gate (idx : BitVec 4) :
    OpcodeByte.Statement (.gate idx) := opByte_wordC _ _

theorem OpcodeByte.clock (idx : BitVec 4) :
    OpcodeByte.Statement (.clock idx) := opByte_wordC _ _

theorem OpcodeByte.tsc (idx : BitVec 4) :
    OpcodeByte.Statement (.tsc idx) := opByte_wordC _ _

theorem OpcodeByte.changed (idx : BitVec 4) :
    OpcodeByte.Statement (.changed idx) := opByte_wordC _ _

theorem OpcodeByte.lastcv (idx : BitVec 4) :
    OpcodeByte.Statement (.lastcv idx) := opByte_wordC _ _

theorem OpcodeByte.islag (idx : BitVec 4) :
    OpcodeByte.Statement (.islag idx) := opByte_wordC _ _

theorem OpcodeByte.loop (idx : BitVec 4) :
    OpcodeByte.Statement (.loop idx) := opByte_wordC _ _

theorem OpcodeByte.outq (idx : BitVec 4) :
    OpcodeByte.Statement (.outq idx) := opByte_wordC _ _

theorem OpcodeByte.out (idx : BitVec 4) (imm : BitVec 16) :
    OpcodeByte.Statement (.out idx imm) := opByte_wordV _ _ _

theorem OpcodeByte.clkout (idx : BitVec 4) (imm : BitVec 16) :
    OpcodeByte.Statement (.clkout idx imm) := opByte_wordV _ _ _

theorem OpcodeByte.startlag (idx : BitVec 4) :
    OpcodeByte.Statement (.startlag idx) := opByte_wordC _ _

theorem OpcodeByte.nlast (idx : BitVec 4) :
    OpcodeByte.Statement (.nlast idx) := opByte_wordC _ _

theorem OpcodeByte.nmin (idx : BitVec 4) :
    OpcodeByte.Statement (.nmin idx) := opByte_wordC _ _

theorem OpcodeByte.nmax (idx : BitVec 4) :
    OpcodeByte.Statement (.nmax idx) := opByte_wordC _ _

theorem OpcodeByte.nfirst (idx : BitVec 4) :
    OpcodeByte.Statement (.nfirst idx) := opByte_wordC _ _

theorem OpcodeByte.susq (idx : BitVec 4) :
    OpcodeByte.Statement (.susq idx) := opByte_wordC _ _

theorem OpcodeByte.nsize (idx : BitVec 4) :
    OpcodeByte.Statement (.nsize idx) := opByte_wordC _ _

theorem OpcodeByte.mout (idx : BitVec 4) :
    OpcodeByte.Statement (.mout idx) := opByte_wordC _ _

theorem OpcodeByte.mtrig (idx : BitVec 4) :
    OpcodeByte.Statement (.mtrig idx) := opByte_wordC _ _

theorem OpcodeByte.logr (idx : BitVec 4) :
    OpcodeByte.Statement (.logr idx) := opByte_wordC _ _

theorem OpcodeByte.playstop :
    OpcodeByte.Statement (.playstop) := opByte_wordZ _

theorem OpcodeByte.tap :
    OpcodeByte.Statement (.tap) := opByte_wordZ _

theorem OpcodeByte.tock (idx : BitVec 4) :
    OpcodeByte.Statement (.tock idx) := opByte_wordC _ _

theorem OpcodeByte.cfgw (addr : BitVec 8) (val : BitVec 16) :
    OpcodeByte.Statement (.cfgw addr val) := opByte_wordR _ _ _

theorem OpcodeByte.cfgr (addr : BitVec 8) :
    OpcodeByte.Statement (.cfgr addr) := opByte_wordR _ _ _

end Sys2Proof.Laws
end

