-- ==== Sys2Proof/Tests/Slice0.lean ====
section
/-! SUPPORT. Tests. Expected values come from spec/95_test_vectors.md (vectors E1 to E9, V1 to V39)
or are written out from the encodings of 30_encoding.md; each step test is one step on a small state.
The theorems `test_witness_<Name>` meet the hypotheses of the statement `Obligations.<Name>`. -/

namespace Sys2Proof.Tests

open Sys2Proof.Machine

/-! ### Well-formedness -/

/-- A status byte of another row is refused in `M.OTHER`, each row at its bounds (R107, R111). -/
theorem test_wellFormed_refuses : ∀ b ∈ [0x80#8, 0x8F, 0x90, 0x9F, 0xA0, 0xAF, 0xB0, 0xBF, 0xD0, 0xDF,
    0xE0, 0xEF, 0xF8, 0xFA, 0xFB, 0xFC, 0xFF], (Instr.mOther b 1 2).wellFormed = false := by decide

theorem test_wellFormed_accepts : ∀ b ∈ [0x00#8, 0x7F, 0xC0, 0xCF, 0xF0, 0xF7, 0xF9, 0xFD, 0xFE],
    (Instr.mOther b 1 2).wellFormed = true := by decide

/-! ### Decoding: words written out from R101 to R107, for every row -/

/-- Opcode byte, then 24 zero bits. -/
theorem test_decode_formatZ :
    decodeTableWord 32 0x01000000 = some .load ∧ decodeTableWord 32 0x02000000 = some .send
    ∧ decodeTableWord 32 0x50000000 = some .playstop ∧ decodeTableWord 32 0x51000000 = some .tap := by
  decide

/-- Opcode byte 0x10, status, 0, d1, 0, d2. The first, bit by bit: 00010000 1001 0010 0 0111100
0 1000000. -/
theorem test_decode_midi_voice :
    decodeTableWord 32 0b00010000100100100011110001000000 = some (.mNoteon 2 60 64)
    ∧ decodeTableWord 32 0x10804800 = some (.mNoteoff 0 72 0)
    ∧ decodeTableWord 32 0x10AF7F01 = some (.mAtpoly 15 127 1)
    ∧ decodeTableWord 32 0x10B2407F = some (.mCc 2 64 127)
    ∧ decodeTableWord 32 0x10D24000 = some (.mAtchan 2 64 0)
    ∧ decodeTableWord 32 0x10E2007F = some (.mPbend 2 0 127) := by decide

theorem test_decode_midi_realtime :
    decodeTableWord 32 0x10F80000 = some (.mClock 0 0)
    ∧ decodeTableWord 32 0x10FA0000 = some (.mStart 0 0)
    ∧ decodeTableWord 32 0x10FB0000 = some (.mCont 0 0)
    ∧ decodeTableWord 32 0x10FC017F = some (.mStop 1 127)
    ∧ decodeTableWord 32 0x10FF0000 = some (.mReset 0 0)
    ∧ decodeTableWord 32 0x10C00500 = some (.mOther 0xC0 5 0)
    ∧ decodeTableWord 32 0x10400101 = some (.mOther 0x40 1 1)
    ∧ decodeTableWord 32 0x10F90000 = some (.mOther 0xF9 0 0) := by decide

/-- Opcode byte, index, 20 zero bits. -/
theorem test_decode_frame_reads :
    decodeTableWord 32 0x20300000 = some (.readIn 3) ∧ decodeTableWord 32 0x21400000 = some (.gate 4)
    ∧ decodeTableWord 32 0x22100000 = some (.clock 1) ∧ decodeTableWord 32 0x23200000 = some (.tsc 2)
    ∧ decodeTableWord 32 0x24100000 = some (.changed 1) ∧ decodeTableWord 32 0x25F00000 = some (.lastcv 15)
    ∧ decodeTableWord 32 0x26000000 = some (.islag 0) ∧ decodeTableWord 32 0x27200000 = some (.loop 2)
    ∧ decodeTableWord 32 0x28800000 = some (.outq 8) := by decide

/-- Opcode byte, index, 4 zero bits, immediate. -/
theorem test_decode_frame_writes :
    decodeTableWord 32 0b00110000001100001111111111111111 = some (.out 3 0xFFFF)
    ∧ decodeTableWord 32 0x3110000A = some (.clkout 1 10)
    ∧ decodeTableWord 32 0x32F00000 = some (.startlag 15) := by decide

theorem test_decode_midi_queries :
    decodeTableWord 32 0x40F00000 = some (.nlast 15) ∧ decodeTableWord 32 0x41000000 = some (.nmin 0)
    ∧ decodeTableWord 32 0x42100000 = some (.nmax 1) ∧ decodeTableWord 32 0x43800000 = some (.nfirst 8)
    ∧ decodeTableWord 32 0x44200000 = some (.susq 2) ∧ decodeTableWord 32 0x45100000 = some (.nsize 1)
    ∧ decodeTableWord 32 0x46300000 = some (.mout 3) ∧ decodeTableWord 32 0x47200000 = some (.mtrig 2)
    ∧ decodeTableWord 32 0x48700000 = some (.logr 7) ∧ decodeTableWord 32 0x52800000 = some (.tock 8) := by
  decide

/-- Opcode byte, address, value. -/
theorem test_decode_registers :
    decodeTableWord 32 0x60120A03 = some (.cfgw 0x12 0x0A03)
    ∧ decodeTableWord 32 0x61890000 = some (.cfgr 0x89) := by decide

/-- The illegal words of V35, and bits 15 and 7 of format M. -/
theorem test_decode_illegal : ∀ w ∈ [0x00000000, 0x01000001, 0x03000000, 0x20000001, 0x30010000,
    0x61030001, 0x10908000, 0x10900080, 0x29000000, 0x53000000, 0x62000000, 0xFFFFFFFF],
    decodeTableWord 32 w = none := by decide

/-- The encoder writes the words of the listings in E1, E7, V11 and V33. -/
theorem test_encode :
    encode (.cfgw 0x10 0x0100) = 0x60100100#32 ∧ encode (.mNoteon 0 60 100) = 0x10903C64#32
    ∧ encode (.out 0 128) = 0x30000080#32 ∧ encode (.clkout 5 1) = 0x31500001#32
    ∧ encode (.cfgr 0x1A) = 0x611A0000#32 ∧ encode (.mStop 0 0) = 0x10FC0000#32 := by decide

/-- The assembler forms of R113 and R114 write the words of the listings. -/
theorem test_assembler :
    asmCfgw (.mo 3) 0x020F = .cfgw 0x2B 0x020F ∧ asmPbend 2 8192 = .mPbend 2 0 64
    ∧ pseudoSetmult 3 (-1) = [.cfgw 0x23 0x00FF] ∧ pseudoSetmap 2 0 .start = [.cfgw 0x12 0x1100]
    ∧ pseudoTrigout {} 2 = [.clkout 2 50] ∧ pseudoGateout {} 1 true = [.out 1 0x1E00] := by decide

/-! ### Small states -/

/-- The state after a command; the state itself where there is no next state. -/
def after (i : Instr) (s : State) : State :=
  match exec i s with
  | .next t => t
  | _ => s

/-- The state after a step. -/
def stepped (s : State) : State :=
  match step s with
  | .next t => t
  | _ => s

/-- The answer of a command. -/
def answer (i : Instr) (s : State) : Word := (after i s).resp

/-- Inside the Process phase of a tick, all else as after reset. -/
def inTick : State := { State.reset with phase := .process }

/-- `s` with input lane 0 as given. -/
def withIn (c : InChannel) (s : State) : State := { s with ins := s.ins.set 0 c }

/-- `s` with an output lane changed. -/
def withOut (ch : Fin noutMax) (f : OutChannel → OutChannel) (s : State) : State :=
  { s with outs := s.outs.set ch (f s.outs[ch]) }

/-- `s` with messages waiting in the inbound queue. -/
def received (ms : List MidiMsg) (s : State) : State := { s with midi := { s.midi with rx := ms } }

/-- `s` with a note stack on MIDI channel index 0. -/
def holding (st : List NoteEntry) (s : State) : State :=
  { s with midi := { s.midi with stack := s.midi.stack.set 0 st } }

/-- `s` with an output lane on MIDI channel index 0 listening as `fn`. -/
def listening (ch : Fin noutMax) (fn : MapFn) (s : State) : State :=
  withOut ch (fun c => { c with mapFn := fn }) s

/-- `s` with a host event presented. -/
def presented (e : HostEvent) (s : State) : State := { s with pending := [e] }

/-- A command word, nothing driven on the other ports. -/
def word (w : Word) : HostEvent := .command w .zero

/-- `s` with a fault latched. -/
def faulty (s : State) : State := { s with fault := { code := .badChannel, word := 0x21400000 } }

/-- `s` with the engine running. -/
def playing (s : State) : State := { s with clk := { s.clk with state := .running } }

/-- `s` with one rising edge on input 0, which is the sync source. -/
def synced (s : State) : State :=
  { withIn { InChannel.reset with clocked := true } s with clk := { s.clk with syncSrc := 0 } }

/-! ### The step -/

/-- The host's word is the one that runs next. -/
theorem test_step_first :
    stepped (State.reset.withFetchWord 32 0x01000000) = after .load State.reset := by decide +kernel

/-- V35: an illegal word latches itself. V39: then nothing is decoded. -/
theorem test_step_faults :
    stepped (presented (word 0x10908000) inTick)
      = { inTick with fault := { code := .illegalCommand, word := 0x10908000 }, resp := allOnes }
    ∧ stepped (presented (word 0x02000000) (faulty inTick)) = { faulty inTick with resp := allOnes } := by
  decide +kernel

/-- R350: while RESET is asserted a command is ignored; its release leaves the reset values, and one
that was not asserted nothing. -/
theorem test_step_resets :
    let s := { faulty inTick with
      pending := [.assertReset, word 0x02000000, .releaseReset, .releaseReset] }
    stepped (stepped s)
      = { faulty inTick with resetAsserted := true, pending := [.releaseReset, .releaseReset] }
    ∧ stepped (stepped (stepped (stepped s))) = State.reset
    ∧ stepped (presented .releaseReset inTick) = inTick := by decide +kernel

/-! ### LOAD and SEND -/

/-- V1: `LOAD {adc: [100, 0, 0, 0]}` from reset. -/
theorem test_load_samples :
    let t := after .load { State.reset with
      inputs := { Inputs.zero with adc := Inputs.zero.adc.set 0 100 } }
    t.ins[0] = { InChannel.reset with inCv := 100, changedCv := true, lastCv := 100, tsc := 1 }
      ∧ readReg .status t = 0x0090 ∧ t.tickCount = 1 := by decide +kernel

/-- V3: in tick 8 the pulse ends; a countdown at 2 leaves the output high. -/
theorem test_load_ends_pulse :
    let t := after .load (withOut 1 (fun c => { c with out := 7680, clockCd := 1, loop := true })
      (withOut 2 (fun c => { c with out := 7680, clockCd := 2 }) State.reset))
    t.outs[1].out = 0 ∧ t.outs[1].loop = false ∧ t.outs[2].out = 7680 ∧ t.outs[2].clockCd = 1 := by
  decide

/-- V6: the value -1 is driven and recorded, the tick ends. -/
theorem test_send_drives :
    let t := after .send (withOut 3 (fun c => { c with out := 0xFFFF }) inTick)
    t.dac[3].code = 0xFFFF ∧ t.outs[3].prevOut = 0xFFFF ∧ t.midiOut = [] ∧ t.phase = .idle := by decide

/-- E7: the old note's Off strictly before the new note's On. -/
theorem test_send_retriggers :
    let c := { OutChannel.reset with
      moFn := .note, out := 256, prevOut := 128, sndValid := true, sndNote := 61 }
    (after .send { withOut 0 (fun _ => c) inTick with midi := { MidiState.reset with autoOut := true } }
      ).midiOut = [⟨0x80, 61, 0⟩, ⟨0x90, 62, 100⟩] := by decide

/-- An outbound data byte has eight bits (10_state.md R74): a velocity of 200 leaves as it is. -/
theorem test_outbound_bytes :
    retriggerMsgs { moVelocity := 200 } 62 { OutChannel.reset with sndValid := true, sndNote := 127 }
      = [⟨0x80, 127, 0⟩, ⟨0x90, 62, 200⟩] := by decide

/-! ### Inbound MIDI -/

/-- V18: the 65th message is dropped and the flag is set; below the depth it is appended. -/
theorem test_midi_enqueue :
    let full := received (List.replicate 64 ⟨0x90, 1, 1⟩) State.reset
    (after (.mNoteon 0 64 1) full).midi.rx.length = 64 ∧ (after (.mNoteon 0 64 1) full).midi.rxqOvf = true
    ∧ (after (.mPbend 2 0 64) State.reset).midi.rx = [⟨0xE2, 0, 64⟩] := by decide

/-- E1: the duplicate is promoted, with its new velocity. -/
theorem test_noteon_promotes :
    let t := after .load (received [⟨0x90, 60, 80⟩] (holding [⟨60, 100⟩, ⟨64, 90⟩]
      (listening 0 .noteLast State.reset)))
    t.midi.stackOf 0 = [⟨64, 90⟩, ⟨60, 80⟩] ∧ t.outs[0].mOut = 0 ∧ t.midi.semitoneMask = 1 := by decide

/-- V17: the first-note trigger fires only on an empty channel; velocity 64 is 3870 (V15). -/
theorem test_noteon_triggers :
    let s := listening 0 .trigAlways (listening 1 .trigFirst (listening 2 .velocity State.reset))
    let t := after .load (received [⟨0x90, 64, 64⟩] (holding [⟨60, 1⟩] s))
    t.outs[0].mTrig = true ∧ t.outs[1].mTrig = false ∧ t.outs[2].mOut = 3870
    ∧ (after .load (received [⟨0x90, 60, 1⟩] s)).outs[1].mTrig = true := by decide

/-- E3: under sustain the stack is updated and the outputs are held; E2: an absent note. -/
theorem test_noteoff :
    let s := holding [⟨67, 100⟩] (withOut 0 (fun c => { c with mOut := 7680 })
      (listening 0 .gate State.reset))
    let held := { s with midi := { s.midi with sustain := 1 } }
    (after .load (received [⟨0x80, 67, 0⟩] held)).outs[0].mOut = 7680
    ∧ (after .load (received [⟨0x80, 67, 0⟩] held)).midi.stackOf 0 = []
    ∧ (after .load (received [⟨0x80, 67, 0⟩] s)).outs[0].mOut = 0
    ∧ (after .load (received [⟨0x80, 72, 0⟩] s)).midi.stackOf 0 = [⟨67, 100⟩] := by decide

/-- V15: only the top note's poly pressure counts. -/
theorem test_atpoly :
    let s := holding [⟨60, 64⟩] (listening 2 .aftertouch State.reset)
    (after .load (received [⟨0xA0, 60, 127⟩] s)).outs[2].mOut = 7680
    ∧ (after .load (received [⟨0xA0, 61, 127⟩] s)).outs[2].mOut = 0 := by decide

/-- V15: controller 7 is learned, 6047 = Prop7(100), and controller 1 is then ignored. -/
theorem test_cc_learns :
    let t := after .load (received [⟨0xB0, 7, 100⟩, ⟨0xB0, 1, 50⟩] (listening 1 .cc State.reset))
    t.outs[1].mOut = 6047 ∧ readReg (.mapb 1) t = 0x0007 := by decide

/-- E3: the pedal goes down, and its release lowers the gate of an empty stack. -/
theorem test_cc_sustain :
    let s := withOut 1 (fun c => { c with mapFn := .gate, mOut := 7680 }) State.reset
    let t := after .load (received [⟨0xB0, 64, 64⟩] s)
    let u := after .load (received [⟨0xB0, 64, 63⟩] { s with midi := { s.midi with sustain := 1 } })
    t.midi.sustain = 1 ∧ t.outs[1].mOut = 7680 ∧ u.midi.sustain = 0 ∧ u.outs[1].mOut = 0 := by decide

/-- V15: channel pressure 64 and the two ends of the bend. -/
theorem test_atchan_pbend :
    let s := listening 2 .aftertouch (listening 3 .pitchbend State.reset)
    (after .load (received [⟨0xD0, 64, 0⟩] s)).outs[2].mOut = 3870
    ∧ (after .load (received [⟨0xE0, 127, 127⟩] s)).outs[3].mOut = 7679
    ∧ (after .load (received [⟨0xE0, 0, 0⟩] s)).outs[3].mOut = 0xE200 := by decide

/-- E6, N = 5: the fifth message wraps, the fourth does not. -/
theorem test_clock_divides :
    let s (n : BitVec 8) := received [⟨0xF8, 0, 0⟩] (listening 3 .clock { State.reset with
      midi := { MidiState.reset with clkDiv := 5, ppqnCnt := n } })
    (after .load (s 4)).midi.clkTick = true ∧ (after .load (s 4)).outs[3].mTrig = true
    ∧ (after .load (s 4)).midi.ppqnCnt = 0 ∧ (after .load (s 3)).midi.clkTick = false
    ∧ (after .load (s 3)).midi.ppqnCnt = 4 ∧ (after .load (s 4)).midi.log = [] := by decide

/-- V12: the engine runs in the tick of the Start. -/
theorem test_start :
    let t := after .load (received [⟨0xFA, 0, 0⟩] (withOut 0 (fun c => { c with mult := 1 })
      (listening 2 .start State.reset)))
    readReg .status t = 0x0086 ∧ t.outs[2].mTrig = true ∧ t.outs[0].mTrig = false
    ∧ t.outs[0].tock = true ∧ t.midi.tx = [] ∧ t.midi.log = [⟨0xFA, 0, 0⟩] := by decide

/-- V12: Continue is Start under its own log byte. -/
theorem test_cont :
    let t := after .load (received [⟨0xFB, 0, 0⟩] State.reset)
    readReg .status t = 0x0086 ∧ t.midi.log = [⟨0xFB, 0, 0⟩] := by decide

/-- E4: Stop clears the stacks, the latches and the mask, and forces the gate low. -/
theorem test_stop :
    let s := withOut 1 (fun c => { c with mapFn := .gate, mOut := 7680 })
      (holding [⟨60, 100⟩] (playing State.reset))
    let t := after .load (received [⟨0xFC, 0, 0⟩] { s with
      midi := { s.midi with sustain := 1, semitoneMask := 5 } })
    t.midi.stackOf 0 = [] ∧ t.midi.sustain = 0 ∧ t.midi.semitoneMask = 0 ∧ t.outs[1].mOut = 0
    ∧ readReg .status t = 0x0090 := by decide

/-- V12: SystemReset is Stop under its own log byte. -/
theorem test_sysreset :
    let t := after .load (received [⟨0xFF, 0, 0⟩] (playing State.reset))
    readReg .status t = 0x0090 ∧ t.midi.log = [⟨0xFF, 0, 0⟩] := by decide

/-- V19: a Program Change, 0xF2 and a status below 0x80 change nothing. -/
theorem test_other_discarded :
    after .load (received [⟨0xC0, 5, 0⟩, ⟨0xF2, 1, 2⟩, ⟨0x40, 1, 1⟩] State.reset)
      = after .load State.reset := by decide +kernel

/-! ### Queries -/

/-- V5 and V1: codes are sign-extended, flags are 0 or 1. -/
theorem test_input_queries :
    let s := withIn { inCv := 0xFED4, lastCv := 0x8000, tsc := 0xFFFFFFFF, lagCd := 1, dbCnt := 0,
                      gateHigh := true, clocked := false, changedCv := true } inTick
    answer (.readIn 0) s = 0xFFFFFED4 ∧ answer (.lastcv 0) s = 0xFFFF8000
    ∧ answer (.tsc 0) s = 0xFFFFFFFF ∧ answer (.gate 0) s = 1 ∧ answer (.clock 0) s = 0
    ∧ answer (.changed 0) s = 1 ∧ answer (.islag 0) s = 0 ∧ answer (.islag 1) s = 1 := by decide

/-- V7, V15 and V27: the output lane's queries. -/
theorem test_output_queries :
    let s := withOut 2 (fun c => { c with out := 0x0781, loop := true, mOut := 0xE200, tock := true })
      inTick
    answer (.outq 2) s = 0x0781 ∧ answer (.loop 2) s = 1 ∧ answer (.mout 2) s = 0xFFFFE200
    ∧ answer (.mtrig 2) s = 0 ∧ answer (.tock 2) s = 1 ∧ answer (.tock 1) s = 0 := by decide

/-- E1 and V22: the note queries of a stack of two and of an empty one. -/
theorem test_note_queries :
    let s := holding [⟨64, 90⟩, ⟨60, 80⟩] { inTick with midi := { MidiState.reset with sustain := 1 } }
    answer (.nlast 0) s = 0x503C ∧ answer (.nfirst 0) s = 0x5A40 ∧ answer (.nmin 0) s = 0x503C
    ∧ answer (.nmax 0) s = 0x5A40 ∧ answer (.nsize 0) s = 2 ∧ answer (.susq 0) s = 1
    ∧ answer (.nlast 15) s = allOnes ∧ answer (.susq 15) s = 0 := by decide

/-- E4 and V22: an entry, an empty position, and a position beyond the depth. -/
theorem test_log_query :
    let s := { inTick with midi := { MidiState.reset with log := [⟨0x90, 62, 100⟩] } }
    answer (.logr 0) s = 0x00903E64 ∧ answer (.logr 6) s = allOnes
    ∧ (after (.logr 6) s).fault.code = .none
    ∧ (after (.logr 7) s).fault = { code := .badChannel, word := 0x48700000 } := by decide

/-! ### Frame writes -/

/-- V7: 1920 is not high, 1921 is, and high to high sets no flag. -/
theorem test_out_threshold :
    (after (.out 2 1920) inTick).outs[2].loop = false ∧ (after (.out 2 1921) inTick).outs[2].loop = true
    ∧ (after (.out 2 5000) (withOut 2 (fun c => { c with out := 1921 }) inTick)).outs[2].loop = false := by
  decide

/-- V11: with a skip of 30, the word 29 skips and the word 30 does not; E9: 0 draws nothing. -/
theorem test_clkout_skip :
    let s (w : BitVec 32) := { inTick with clkSkip := 30, inputs := { Inputs.zero with rng := w } }
    after (.clkout 0 10) (s 29) = { s 29 with resp := 1, rngDraws := 1 }
    ∧ (after (.clkout 0 10) (s 30)).outs[0]
      = { OutChannel.reset with out := 7680, clockCd := 10, loop := true }
    ∧ (after (.clkout 0 10) (s 30)).rngDraws = 1 ∧ (after (.clkout 0 10) inTick).rngDraws = 0 := by decide

/-- E8: the lag restarts at 96. -/
theorem test_startlag :
    (after (.startlag 0) (withIn { InChannel.reset with lagCd := 56 } inTick)).ins[0].lagCd = 96 := by
  decide

/-! ### Clock engine -/

/-- V26: STOPPED, PAUSED, RUNNING, STOPPED. -/
theorem test_playstop :
    (after .playstop inTick).clk.state = .paused
    ∧ (after .playstop { inTick with clk := { inTick.clk with state := .paused } }).clk.state = .running
    ∧ (after .playstop (playing inTick)).clk.state = .stopped := by decide

/-- V29: the third interval of 5000 sets 200 beats per minute; an interval of 1000001 resets. -/
theorem test_tap :
    let s (now : BitVec 32) := { inTick with
      tickCount := now
      clk := { inTick.clk with
               tapBuf := [5000, 5000, 0], tapN := 2, lastTap := 20, lastTapValid := true } }
    (after .tap (s 5020)).clk.bpm = 200 ∧ (after .tap (s 5020)).clk.beatTicks = 5000
    ∧ (after .tap (s 5020)).clk.tapN = 0 ∧ (after .tap (s 1000021)).clk.bpm = 120
    ∧ (after .tap (s 1000021)).clk.tapN = 0 := by decide

/-- V27: at position 2777 of a beat of 8333 a multiplier of 3 ticks, one of 2 does not. V28: at an
odd pulse a shuffle of 50 delays by 1388. -/
theorem test_pulses :
    let s := { playing State.reset with clk := { (playing State.reset).clk with beatPos := 2777 } }
    let t := after .load (withOut 1 (fun c => { c with mult := 2 })
      (withOut 2 (fun c => { c with mult := 3 }) s))
    t.outs[2].tock = true ∧ t.outs[2].pulsePar = true ∧ t.outs[1].tock = false
    ∧ shuffleDelay {} 2777 50 = 1388 ∧ nominalPulse {} 0xFF 8333 0 1 = none
    ∧ nominalPulse {} 0xFF 8333 0 2 = some 16666 := by decide

/-- V31: a spacing of 2000 ticks, four pulses a beat, is a beat of 8000 ticks and 125 per minute. -/
theorem test_sync :
    let k := { ClockState.resetWith {} with
      state := .running, syncSeen := true, sinceSync := 1999, syncCnt := 1, beatPos := 2000 }
    let t := State.clockStep { synced State.reset with clk := { k with syncSrc := 0 } }
    t.clk.beatTicks = 8000 ∧ t.clk.bpm = 125 ∧ t.clk.syncCnt = 2 ∧ t.clk.beatPos = 2001 := by decide

/-! ### Registers and faults -/

/-- V33 and V32. -/
theorem test_cfgw :
    readReg (.mapa 2) (after (.cfgw 0x12 0x0A03) State.reset) = 0x0A03
    ∧ (after (.cfgw 0x03 7) State.reset).clk.beatTicks = 142857
    ∧ (after (.cfgw 0x20 0x00FF) State.reset).outs[0].mult = 0xFF := by decide

/-- V33: the reset values of `BEAT_TICKS_LO`, `MAPB[0]` and `SYNC_SRC`. -/
theorem test_cfgr :
    answer (.cfgr 0x86) State.reset = 0x208D ∧ answer (.cfgr 0x18) State.reset = 0x80
    ∧ answer (.cfgr 0x06) State.reset = 7 := by decide

/-- V34: the illegal values. -/
theorem test_cfgw_illegal : ∀ w ∈ [0x60000002, 0x60010000, 0x60010100, 0x60020065, 0x60030000,
    0x6003012D, 0x60040064, 0x60050000, 0x60050019, 0x60060004, 0x60060008, 0x60101200, 0x60100010,
    0x60180100, 0x60200100, 0x60280300, 0x60280400],
    (decodeTableWord 32 w).map (fun i => (after i State.reset).fault)
      = some { code := .badValue, word := BitVec.ofNat 32 w } := by decide

/-- V36, V37 and V38: the order of the checks. -/
theorem test_faults :
    (after (.gate 9) State.reset).fault = { code := .badOrder, word := 0x21900000 }
    ∧ (after .load inTick).fault = { code := .badOrder, word := 0x01000000 }
    ∧ (after (.out 4 0) inTick).fault = { code := .badChannel, word := 0x30400000 }
    ∧ (after (.tock 8) inTick).fault = { code := .badChannel, word := 0x52800000 }
    ∧ (after (.cfgw 0x90 5) State.reset).fault = { code := .badRegister, word := 0x60900005 }
    ∧ (after (.cfgw 0x80 0) State.reset).fault.code = .badRegister
    ∧ (after (.cfgr 0x14) State.reset).fault.code = .badRegister := by decide

/-! ### Witnesses: the hypotheses of the statements can be met, each clause at a bound of its range -/

theorem test_witness_DecodeInvertsEncode :
    (Instr.mOther 0xCF 127 0).wellFormed = true ∧ (Instr.mOther 0x7F 0 127).wellFormed = true
    ∧ (Instr.out 15 0xFFFF).wellFormed = true := by decide

theorem test_witness_DecodedWordIsItsEncoding :
    decode 0x10FF7F7F#32 = .ok (.mReset 127 127) ∧ decode 0x30FFFFFF#32 = .error .reservedBits
    ∧ decode 0x30F0FFFF#32 = .ok (.out 15 0xFFFF) := ⟨rfl, rfl, rfl⟩

theorem test_witness_StepRunsDecodedCommand :
    let s := presented (word 0x01000000) State.reset
    s.cfg.accepted = true ∧ s.resetAsserted = false ∧ s.fault.code = .none
    ∧ s.pending = .command 0x01000000 .zero :: []
    ∧ decode 0x01000000#32 = .ok .load := ⟨by decide, rfl, by decide, by decide, rfl⟩

theorem test_witness_UnmatchedWordRaisesIllegalCommand :
    let s := presented (word 0x10908000) State.reset
    s.cfg.accepted = true ∧ s.resetAsserted = false ∧ s.fault.code = .none
    ∧ s.pending = .command 0x10908000 .zero :: []
    ∧ decodeByMap 0x10908000#32 = none ∧ opByte 0x10908000#32 = 0x10#8
    ∧ (0x10908000#32).getLsbD 15 = true ∧ (0x10900080#32).getLsbD 7 = true := by decide

/-- A command while faulted, the assertion, a command while asserted, and the release. -/
theorem test_witness_FaultedBlockWaitsForReset :
    let held : State := { inTick with resetAsserted := true }
    State.reset.cfg.accepted = true ∧ (faulty inTick).fault.code ≠ .none
    ∧ (faulty inTick).resetAsserted = false ∧ held.resetAsserted = true
    ∧ (presented (word 0x02000000) (faulty inTick)).pending = .command 0x02000000 .zero :: []
    ∧ (presented .assertReset inTick).pending = .assertReset :: []
    ∧ (presented (word 0x02000000) held).pending = .command 0x02000000 .zero :: []
    ∧ (presented .releaseReset held).pending = .releaseReset :: [] := by decide

/-- Whether the next step is refused for its parameters. -/
def refuses (s : State) : Bool :=
  match step s with
  | .refused .illegalConfiguration => true
  | _ => false

/-- The values just outside each range, and, for the other direction, the bounds of each range. -/
theorem test_witness_IllegalParametersAreRefused :
    (presented .assertReset State.reset).pending ≠ []
    ∧ (∀ cfg ∈ [{ nout := 3 }, { nout := 9 }, { debounceTicks := 0 }, { rxqDepth := 0 },
        { rxqDepth := 256 }, ({ multPosOffset := 2 } : Config)],
        refuses (presented .assertReset (.resetWith cfg)) = true)
    ∧ ∀ cfg ∈ [{ nout := 4, debounceTicks := 1, rxqDepth := 1, multPosOffset := 0 },
        ({ nout := 8, rxqDepth := 255, multPosOffset := 1, adcLagTicks := 256 } : Config)],
        refuses (presented .assertReset (.resetWith cfg)) = false := by decide +kernel

/-- The two ends of the range of output counts are legal. -/
theorem test_witness_EveryPresentedCommandCompletes :
    State.reset.cfg.accepted = true ∧ ({ nout := 8, debounceTicks := 1000 } : Config).accepted = true
    ∧ ({ multPosOffset := 1, rxqDepth := 255, codesPerSemitone := 0 } : Config).accepted = true := by
  decide

theorem test_witness_WrongPhaseRaisesBadOrder :
    Instr.load.legalPhase = some .idle ∧ inTick.phase ≠ .idle
    ∧ (Instr.tock 15).legalPhase = some .process ∧ State.reset.phase ≠ .process := by decide

theorem test_witness_OutOfRangeIndexRaisesBadChannel :
    inTick.phase = .process ∧ (Instr.readIn 4).indexInRange {} = false
    ∧ (Instr.out 4 0).indexInRange {} = false ∧ (Instr.logr 7).indexInRange {} = false
    ∧ (Instr.tock 8).indexInRange { nout := 8 } = false
    ∧ Instr.nsize 15 ∈ [Instr.nlast 15, .nmin 15, .nmax 15, .nfirst 15, .susq 15, .nsize 15] := by decide

/-- Just past each block of addresses, with four outputs. -/
theorem test_witness_UnimplementedRegisterRaisesBadRegister :
    State.reset.cfg.legal = true ∧ ∀ a ∈ [0x08, 0x0F, 0x14, 0x17, 0x1C, 0x1F, 0x24, 0x27, 0x2C, 0x7F,
      0x8A, 0xFF], ¬ (a ≤ 0x07 ∨ (0x10 ≤ a ∧ a < 0x10 + 4) ∨ (0x18 ≤ a ∧ a < 0x18 + 4)
        ∨ (0x20 ≤ a ∧ a < 0x20 + 4) ∨ (0x28 ≤ a ∧ a < 0x28 + 4)) ∧ ¬ (0x80 ≤ a ∧ a ≤ 0x89) := by decide

/-- The last value inside each bound, and the first one past it. -/
theorem test_witness_IllegalValueRaisesBadValue :
    (1#16).toNat ≤ 1 ∧ ¬ (2#16).toNat ≤ 1 ∧ 1 ≤ (1#16).toNat ∧ ¬ 1 ≤ (0#16).toNat ∧ (255#16).toNat ≤ 255
    ∧ ¬ (256#16).toNat ≤ 255 ∧ (100#16).toNat ≤ 100 ∧ ¬ (101#16).toNat ≤ 100
    ∧ State.reset.cfg.bpmMin ≤ (1#16).toNat ∧ ¬ State.reset.cfg.bpmMin ≤ (0#16).toNat
    ∧ (300#16).toNat ≤ State.reset.cfg.bpmMax ∧ ¬ (301#16).toNat ≤ State.reset.cfg.bpmMax
    ∧ (99#16).toNat ≤ State.reset.cfg.shuffleMax ∧ ¬ (100#16).toNat ≤ State.reset.cfg.shuffleMax
    ∧ (24#16).toNat ≤ 24 ∧ ¬ (25#16).toNat ≤ 24 ∧ (3#16).toNat < State.reset.cfg.nin
    ∧ ¬ (4#16).toNat < State.reset.cfg.nin ∧ (7#16).toNat = 7 ∧ ¬ (8#16).toNat = 7
    ∧ (3#3).toNat < State.reset.cfg.nout
    ∧ 0x110F#16 &&& ~~~0x1F0F#16 = 0 ∧ (0x110F#16).toNat / 256 % 32 ≤ 17
    ∧ 0x0010#16 &&& ~~~0x1F0F#16 ≠ 0 ∧ ¬ (0x1200#16).toNat / 256 % 32 ≤ 17
    ∧ 0x020F#16 &&& ~~~0x030F#16 = 0 ∧ (0x020F#16).toNat / 256 % 4 ≤ 2
    ∧ 0x0400#16 &&& ~~~0x030F#16 ≠ 0 ∧ ¬ (0x0300#16).toNat / 256 % 4 ≤ 2 := by decide

theorem test_witness_FaultsArePrecise :
    exec .send State.reset = .next (after .send State.reset)
    ∧ (after .send State.reset).fault ≠ State.reset.fault := ⟨rfl, by decide⟩

theorem test_witness_LegalCommandNeverFaults :
    State.reset.cfg.legal = true ∧ (Instr.cfgw 0x2B 0x020F).legalPhase = none
    ∧ (Instr.cfgw 0x2B 0x020F).indexInRange {} = true
    ∧ regAt 4 0x2B = some (.mo 3) ∧ (Reg.mo 3).writable = true ∧ legalValue {} (.mo 3) 0x020F = true
    ∧ regAt 4 0x89 ≠ none ∧ Instr.load.legalPhase = some State.reset.phase
    ∧ (Instr.tock 3).legalPhase = some inTick.phase ∧ (Instr.tock 3).indexInRange {} = true := by decide

theorem test_witness_InputQueriesAnswer :
    State.reset.phase = .idle ∧ inTick.phase = .process ∧ (3#4).toNat < ninMax
    ∧ (3#4).toNat < inTick.cfg.nin ∧ inTick.cfg.nin ≤ (4#4).toNat := by decide

theorem test_witness_OutputQueriesAnswer :
    State.reset.phase = .idle ∧ inTick.phase = .process ∧ (3#4).toNat < noutMax
    ∧ (3#4).toNat < inTick.cfg.nout ∧ inTick.cfg.nout ≤ (4#4).toNat := by decide

theorem test_witness_ChannelQueriesAnswer :
    let s := holding [⟨64, 90⟩, ⟨60, 80⟩] inTick
    s.phase = .process ∧ s.midi.stackOf 15 = [] ∧ s.midi.stackOf 0 = [⟨64, 90⟩] ++ [⟨60, 80⟩]
    ∧ distinctNotes (s.midi.stackOf 0)
    ∧ (∀ e' ∈ s.midi.stackOf 0, (60#7) ≤ e'.note) ∧ (∀ e' ∈ s.midi.stackOf 0, e'.note ≤ (64#7)) := by
  refine ⟨rfl, by decide, by decide, ?_, by decide, by decide⟩
  simp [distinctNotes, holding, MidiState.stackOf]

theorem test_witness_LogQueryAnswers :
    let s := { inTick with midi := { MidiState.reset with log := [⟨0x90, 62, 100⟩] } }
    State.reset.phase = .idle ∧ s.phase = .process ∧ s.cfg.logDepth ≤ (7#4).toNat
    ∧ (6#4).toNat < s.cfg.logDepth ∧ s.midi.log[(0#4).toNat]? = some ⟨0x90, 62, 100⟩
    ∧ s.midi.log.length ≤ (1#4).toNat := by decide

theorem test_witness_QueriesHaveNoSideEffect :
    (Instr.cfgr 0x89).isQuery = true ∧ exec (.cfgr 0x89) State.reset = .next (after (.cfgr 0x89) State.reset)
    ∧ (after (.cfgr 0x89) State.reset).fault = State.reset.fault ∧ Instr.send ≠ .load
    ∧ exec .send inTick = .next (after .send inTick) := ⟨rfl, rfl, by decide, by decide, rfl⟩

theorem test_witness_OutWritesAndDetectsRise :
    State.reset.phase = .idle ∧ inTick.phase = .process ∧ (3#4).toNat < noutMax
    ∧ (3#4).toNat < inTick.cfg.nout ∧ inTick.cfg.nout ≤ (4#4).toNat := by decide

/-- A remainder just below the percentage, and one equal to it. -/
theorem test_witness_ClkoutPulsesOrSkips :
    let s := { inTick with clkSkip := 30 }
    State.reset.phase = .idle ∧ s.phase = .process ∧ (3#4).toNat < noutMax ∧ (3#4).toNat < s.cfg.nout
    ∧ s.cfg.nout ≤ (4#4).toNat ∧ inTick.clkSkip = 0 ∧ s.clkSkip ≠ 0
    ∧ (129#32).toNat % 100 < s.clkSkip.toNat ∧ s.clkSkip.toNat ≤ (30#32).toNat % 100 := by decide

theorem test_witness_StartlagLoadsCountdown :
    State.reset.phase = .idle ∧ inTick.phase = .process ∧ (3#4).toNat < ninMax
    ∧ (3#4).toNat < inTick.cfg.nin ∧ inTick.cfg.nin ≤ (4#4).toNat := by decide

theorem test_witness_LoadBeginsTick :
    (received [⟨0x90, 60, 1⟩, ⟨0x80, 60, 0⟩] State.reset).phase = .idle ∧ 3 < noutMax
    ∧ 3 < State.reset.cfg.nout ∧ State.reset.cfg.nout ≤ 4 := by decide

/-- A stable line, a change that a debouncer of one tick takes, one that it does not at two; an edge
and no edge; a CV step of 33 and one of 32. -/
theorem test_witness_LoadConditionsInputs :
    let c := State.reset.ins[3]
    State.reset.phase = .idle ∧ 3 < ninMax ∧ 3 < State.reset.cfg.nin ∧ false = c.gateHigh ∧ true ≠ c.gateHigh
    ∧ State.reset.cfg.debounceTicks ≤ c.dbCnt.toNat + 1
    ∧ c.dbCnt.toNat + 1 < ({ debounceTicks := 2 } : Config).debounceTicks
    ∧ (c.conditioned {} true 33).clocked = true ∧ (c.conditioned {} false 32).clocked = false
    ∧ (c.conditioned {} true 33).changedCv = true ∧ (c.conditioned {} true 32).changedCv = false := by
  decide +kernel

theorem test_witness_LoadStepsCountdowns :
    let cd (n : BitVec 16) := withOut 3 (fun c => { c with clockCd := n, noteoffCd := n, sndValid := true })
      State.reset
    State.reset.phase = .idle ∧ 3 < noutMax ∧ 3 < State.reset.cfg.nout ∧ 3 < ninMax
    ∧ 3 < State.reset.cfg.nin
    ∧ (cd 0).outs[3].clockCd = 0 ∧ (cd 1).outs[3].clockCd = 1 ∧ 1 < (cd 2).outs[3].clockCd.toNat
    ∧ (cd 1).outs[3].noteoffCd = 1 ∧ (cd 1).outs[3].sndValid = true := by decide

theorem test_witness_LoadClearsOneTickFlags :
    State.reset.phase = .idle ∧ 3 < noutMax ∧ 3 < State.reset.cfg.nout ∧ State.reset.midi.rx = []
    ∧ State.reset.clk.state = .stopped := by decide

/-- One free place, and none. -/
theorem test_witness_MidiCommandsOnlyEnqueue :
    let s (n : Nat) := received (List.replicate n ⟨0x90, 1, 1⟩) State.reset
    opByte (encode (.mNoteon 15 127 127)) = 0x10#8 ∧ opByte (encode (.mOther 0xC0 5 0)) = 0x10#8
    ∧ (s 63).midi.rx.length < (s 63).cfg.rxqDepth ∧ (s 64).cfg.rxqDepth ≤ (s 64).midi.rx.length := by
  decide

/-- A held stack of distinct notes; a listening and a deaf lane; a live and a dead one. -/
theorem test_witness_NoteOnPromotesAndDrivesOutputs :
    let s := holding [⟨64, 90⟩, ⟨60, 80⟩] (listening 3 .velocity State.reset)
    distinctNotes (s.midi.stackOf 0) ∧ 3 < s.cfg.nout ∧ s.cfg.nout ≤ 4 ∧ s.outs[3].mapMch = 0
    ∧ s.outs[3].mapFn = .velocity ∧ s.outs[2].mapMch ≠ 1
    ∧ selectedNote .noteMin (s.midi.stackOf 0) = some 60 := by
  refine ⟨?_, by decide, by decide, by decide, by decide, by decide, by decide⟩
  simp [distinctNotes, holding, listening, withOut, MidiState.stackOf]

theorem test_witness_NoteSelectionFunctions :
    let st : List NoteEntry := [⟨64, 90⟩, ⟨60, 80⟩]
    (⟨60, 80⟩ : NoteEntry) ∈ st ∧ (∀ e' ∈ st, (60#7) ≤ e'.note) ∧ (∀ e' ∈ st, e'.note ≤ (64#7))
    ∧ ([⟨60, 80⟩] : List NoteEntry).length + 1 = 2 ∧ st.length + 1 < 4
    ∧ (MapFn.notePoly4, 4) ∈ [(MapFn.notePoly2, 2), (.notePoly3, 3), (.notePoly4, 4)] := by decide

/-- Held, not held; latched, not latched. -/
theorem test_witness_NoteOffRemovesAndRespectsSustain :
    let s := holding [⟨67, 100⟩] (listening 3 .gate State.reset)
    distinctNotes (s.midi.stackOf 0) ∧ (∀ e ∈ s.midi.stackOf 0, e.note ≠ 72) ∧ 3 < s.cfg.nout
    ∧ s.outs[3].mapMch = 0 ∧ s.midi.sustain.getLsbD 0 = false ∧ (0x8000#16).getLsbD 15 = true
    ∧ s.outs[3].mapFn = .gate ∧ withoutNote (s.midi.stackOf 0) 67 = []
    ∧ selectedNote .noteLast (withoutNote (s.midi.stackOf 0) 72) = some 67 := by
  refine ⟨?_, by decide, by decide, by decide, by decide, by decide, by decide, by decide, by decide⟩
  simp [distinctNotes, holding, listening, withOut, MidiState.stackOf]

theorem test_witness_StopPanicsUnconditionally :
    (⟨0xFC, 0, 0⟩ : MidiMsg).status = 0xFC#8 ∧ (⟨0xFF, 0, 0⟩ : MidiMsg).status = 0xFF#8
    ∧ 3 < State.reset.cfg.nout ∧ State.reset.cfg.nout ≤ 4 := by decide

theorem test_witness_StartForcesRunning :
    (⟨0xFA, 0, 0⟩ : MidiMsg).status = 0xFA#8 ∧ (⟨0xFB, 0, 0⟩ : MidiMsg).status = 0xFB#8
    ∧ 3 < State.reset.cfg.nout ∧ State.reset.cfg.nout ≤ 4 := by decide

/-- With a divisor of 5, a counter of 3 is counted and one of 4 wraps. -/
theorem test_witness_ClockMessageCountsThenWraps :
    (⟨0xF8, 0, 0⟩ : MidiMsg).status = 0xF8#8 ∧ (3#8).toNat + 1 < (5#8).toNat
    ∧ (5#8).toNat ≤ (4#8).toNat + 1 := by decide

theorem test_witness_ClockDivisorYieldsFloorEvents :
    State.reset.midi.clkDiv ≠ 0 ∧ State.reset.midi.ppqnCnt = 0 := by decide

/-- Pedal values 64 and 63; a lane that learns, one that matches, one that does not. -/
theorem test_witness_ControlChangeSustainsOrLearns :
    let s := listening 3 .cc State.reset
    let learned := withOut 3 (fun c => { c with mapCc := 7, ccUnset := false }) s
    64 ≤ (64#7).toNat ∧ (63#7).toNat < 64 ∧ (7#7) ≠ 64 ∧ 3 < s.cfg.nout ∧ s.outs[3].mapMch = 0
    ∧ s.outs[3].mapFn = .cc ∧ s.outs[3].ccUnset = true ∧ learned.outs[3].ccUnset = false
    ∧ learned.outs[3].mapCc = 7 ∧ learned.outs[3].mapCc ≠ 1 ∧ ¬ s.outs[2].mapFn = .cc := by decide

theorem test_witness_PressureAndBendDriveOutputs :
    let s := holding ([⟨60, 1⟩] ++ [⟨64, 1⟩]) (listening 3 .aftertouch (listening 2 .pitchbend State.reset))
    3 < s.cfg.nout ∧ s.outs[3].mapMch = 0 ∧ s.outs[3].mapFn = .aftertouch
    ∧ s.outs[2].mapFn = .pitchbend ∧ s.midi.stackOf 0 = [⟨60, 1⟩] ++ [⟨64, 1⟩]
    ∧ s.outs[1].mapFn ≠ .aftertouch ∧ s.outs[1].mapFn ≠ .pitchbend := by decide

/-- The ends of each undispatched range. -/
theorem test_witness_UndispatchedStatusIsDiscarded :
    (0xF9#8).toNat ∈ [0xF9, 0xFD, 0xFE] ∧ (0x7F#8).toNat < 0x80
    ∧ 0xC0 ≤ (0xC0#8).toNat ∧ (0xCF#8).toNat ≤ 0xCF
    ∧ 0xF0 ≤ (0xF0#8).toNat ∧ (0xF7#8).toNat ≤ 0xF7 := by decide

/-- An empty log and a full one. -/
theorem test_witness_ActivityLogKeepsTheNewest :
    0 < State.reset.cfg.logDepth ∧ State.reset.midi.log.length ≤ State.reset.cfg.logDepth
    ∧ (List.replicate 7 (⟨0x90, 1, 1⟩ : LogEntry)).length ≤ State.reset.cfg.logDepth
    ∧ 0xE0#8 ∈ [0x80#8, 0x90#8, 0xA0#8, 0xB0#8, 0xD0#8, 0xE0#8]
    ∧ 0xFF#8 ∈ [0xFA#8, 0xFB#8, 0xFC#8, 0xFF#8] := by decide

theorem test_witness_SendDrivesPortsAndEndsTick :
    inTick.phase = .process ∧ 3 < inTick.cfg.ndac ∧ inTick.midi.autoOut = false ∧ inTick.outs[7].moFn ≠ .note := by decide

/-- A state with a note output, paired or not with a gate output. -/
def noteOut (g : MoFn) (prev now : Code) (c : OutChannel) : State :=
  withOut 0 (fun _ => { c with moFn := .note })
    (withOut 1 (fun d => { d with moFn := g, prevOut := prev, out := now })
      { inTick with midi := { MidiState.reset with autoOut := true } })

theorem test_witness_NoteOutputRetriggersOffBeforeOn :
    let sounding := { OutChannel.reset with sndValid := true, sndNote := 61, out := 256 }
    let s := noteOut .gate 1920 1921 sounding
    s.phase = .process ∧ s.midi.autoOut = true ∧ 0 < s.cfg.codesPerSemitone ∧ 0 < s.cfg.nout
    ∧ s.outs[0].moFn = .note
    ∧ s.outs[1].moFn ≠ .note ∧ 0 + 1 < s.cfg.nout ∧ s.outs[1].moFn = .gate
    ∧ ¬ (s.cfg.gateThreshold : Int) < s.outs[1].prevOut.toInt
    ∧ (s.cfg.gateThreshold : Int) < s.outs[1].out.toInt
    ∧ ¬ (s.cfg.gateThreshold : Int) < (noteOut .gate 1920 1920 sounding).outs[1].out.toInt
    ∧ cvToNote s.cfg s.outs[0].out ≠ s.outs[0].sndNote ∧ OutChannel.reset.sndValid = false
    ∧ (noteOut .off 0 0 sounding).outs[1].moFn ≠ .gate
    ∧ cvToNote s.cfg s.outs[0].out ≠ cvToNote s.cfg s.outs[0].prevOut := by decide +kernel

theorem test_witness_PlaystopCycles :
    State.reset.phase = .idle ∧ inTick.phase = .process ∧ (playing inTick).clk.state = .running
    ∧ inTick.clk.state = .stopped ∧ (after .playstop inTick).clk.state = .paused
    ∧ (after .playstop inTick).phase = .process ∧ 3 < inTick.cfg.nout ∧ inTick.cfg.nout ≤ 4 := by decide

/-- An interval of exactly `TAP_MAX_TICKS`, and one more; a first, a second and a last interval. -/
theorem test_witness_TapSetsTempoFromThreeIntervals :
    let k (n : Nat) := { State.reset.clk with lastTapValid := true, lastTap := 7, tapN := n }
    State.reset.phase = .idle ∧ inTick.phase = .process ∧ State.reset.clk.lastTapValid = false
    ∧ (k 0).lastTapValid = true ∧ (1000007#32 - (k 0).lastTap).toNat ≤ State.reset.cfg.tapMaxTicks
    ∧ State.reset.cfg.tapMaxTicks < (1000008#32 - (k 0).lastTap).toNat
    ∧ (k 0).tapN + 1 ≠ State.reset.cfg.tapN ∧ (k 1).tapN + 1 ≠ State.reset.cfg.tapN
    ∧ (k 2).tapN = 2 ∧ (k 2).tapN + 1 = State.reset.cfg.tapN ∧ State.reset.cfg.tapN = 3
    ∧ (k 2).tapBuf = [0, 0, 0] ∧ State.reset.cfg.legal = true
    ∧ ({ tapN := 1 } : Config).legal = true := by decide

/-- The least and the greatest multiplier of each sign, and 0; a position that is one, and one that
is not. -/
theorem test_witness_NominalPulsesPerBeat :
    0 < (1#8).toInt ∧ 0 < (127#8).toInt ∧ (127#8).toInt.toNat + 1 ≤ 128 ∧ (0xFF#8).toInt < 0
    ∧ (0x80#8).toInt < 0 ∧ (0#8).toInt = 0 ∧ 1 * 8333 / 3 = 2777
    ∧ ∀ k, k < 3 → k * 8333 / 3 ≠ 2776 := by decide

theorem test_witness_ChannelPulseFiresOrDelays :
    let k := { ClockState.resetWith {} with shuffle := 50 }
    let c := { OutChannel.reset with mult := 1, pulsePar := true }
    0 < c.mult.toInt ∧ 0 * k.beatTicks.toNat / 1 = k.beatPos.toNat ∧ (0xFF#8).toInt < 0
    ∧ k.beatCount.toNat % 2 = 0 ∧ ¬ 0 < OutChannel.reset.mult.toInt ∧ ¬ OutChannel.reset.mult.toInt < 0
    ∧ OutChannel.reset.pulsePar = false ∧ shuffleDelay {} 8333 0 = 0 ∧ c.pulsePar = true
    ∧ shuffleDelay {} 8333 k.shuffle.toNat ≠ 0 := by decide

theorem test_witness_ShuffleDelayLaws :
    ({} : Config).legal = true ∧ ({ shuffleCurve := .free 0 } : Config).legal = true ∧ 0 < 1
    ∧ 99 ≤ ({} : Config).shuffleMax := by decide

/-- With no sync source selected, and with one that is not clocked. -/
theorem test_witness_BeatLastsBeatTicks :
    let k := ClockState.resetWith {}
    let s : State := { playing State.reset with clk := { k with syncSrc := 0, state := .running } }
    k.syncSeen = false ∧ k.beatPos = 0 ∧ 0 < k.beatTicks.toNat ∧ 8332 < k.beatTicks.toNat
    ∧ (playing State.reset).noPulse ∧ (playing State.reset).clk.state = .running
    ∧ s.noPulse ∧ s.clk.state = .running ∧ State.reset.clk.state ≠ .running := by
  refine ⟨rfl, rfl, by decide, by decide, fun h => absurd h (by decide), rfl, fun _ c hc => ?_, rfl,
    by decide⟩
  cases hc
  rfl

/-- Boundaries of `Advance`: the last position of a beat, a `beat_ticks` shortened below the position,
the position before the last, a locked engine, and the saturated position. -/
theorem test_witness_BeatLastsBeatTicks_advance :
    let k (beat : BitVec 20) (pos count : BitVec 32) (seen : Bool) : ClockState :=
      { State.reset.clk with beatTicks := beat, beatPos := pos, beatCount := count, syncSeen := seen }
    (k 8 7 5 false).advance = k 8 0 6 false ∧ (k 8 100 5 false).advance = k 8 0 6 false
    ∧ (k 8 6 5 false).advance = k 8 7 5 false ∧ (k 8 7 5 true).advance = k 8 8 5 true
    ∧ (k 8 0xFFFFFFFF 5 false).advance = k 8 0 6 false
    ∧ (k 8 0xFFFFFFFF 5 true).advance = k 8 0xFFFFFFFF 5 true := by decide

/-- The positions of R279's example: of a beat of 8333 ticks that starts in tick 3, Clock messages
are due in ticks 3, 350, 697 and 7988, and in none between. -/
theorem test_midi_clock_schedule :
    let due (tick : BitVec 32) : Bool :=
      midiClockDue {} { State.reset.clk with beatTicks := 8333, beatPos := tick - 3 }
    due 3 = true ∧ due 350 = true ∧ due 697 = true ∧ due 7988 = true
    ∧ due 4 = false ∧ due 349 = false ∧ due 351 = false
    ∧ midiClockDue {} { State.reset.clk with emitClk := false, beatPos := 0 } = false := by decide

/-- A beat that starts at position 0, with emission enabled (and, after a Start, disabled). -/
theorem test_witness_MidiClocksPerBeat :
    let s := playing State.reset
    0 < s.cfg.midiPpqn ∧ s.cfg.midiPpqn ≤ (24#20).toNat
    ∧ s.cfg.midiPpqn ≤ s.clk.beatTicks.toNat ∧ s.clk.state = .running ∧ s.noPulse
    ∧ s.clk.syncSeen = false ∧ s.clk.beatPos = 0 ∧ s.clk.emitClk = true
    ∧ s.clockMidiStart.clk.emitClk = false :=
  ⟨by decide, by decide, by decide, rfl, fun h => absurd h (by decide), rfl, rfl, rfl, rfl⟩

theorem test_witness_ExternalSyncStartsAndRealigns :
    let s (p : ClkState) (n : BitVec 5) (pos : BitVec 32) (seen : Bool := false) : State :=
      { synced State.reset with
        clk := { State.reset.clk with
          syncSrc := 0, state := p, syncCnt := n, beatPos := pos, syncSeen := seen } }
    1 ≤ (s .running 0 1).clk.syncPpqn.toNat
    ∧ (s .running 0 1).clk.syncSrc.toNat < (s .running 0 1).cfg.nin
    ∧ (s .running 0 1).ins[(s .running 0 1).clk.syncSrc.toNat]?
      = some { InChannel.reset with clocked := true }
    ∧ (s .stopped 0 0).clk.state = .stopped ∧ (s .paused 0 0).clk.state = .paused
    ∧ (s .running 0 1).clk.state = .running ∧ (s .running 0 1).clk.syncCnt = 0
    ∧ (s .running 0 1).clk.beatPos ≠ 0 ∧ (s .running 3 1).clk.syncCnt ≠ 0
    ∧ (s .running 0 0).clk.beatPos = 0
    ∧ (s .running 0 1).clk.syncSeen = false ∧ (s .running 0 1 true).clk.syncSeen = true := by decide

theorem test_witness_ReconcileMeasuresTheBeat :
    let s : State := { synced State.reset with
      clk := { State.reset.clk with syncSrc := 0, state := .running, syncSeen := true } }
    s.cfg.legal = true ∧ s.clk.syncSrc.toNat < s.cfg.nin ∧ s.ins[s.clk.syncSrc.toNat]? = some { InChannel.reset with clocked := true }
    ∧ s.clk.state = .running ∧ s.clk.syncSeen = true ∧ s.cfg.reconciliation = .lastSpacing
    ∧ ({ reconciliation := .free 0 } : Config).legal = true := by decide

theorem test_witness_ClockStateChangesOnlyByItsEvents :
    let s : State := { synced State.reset with
      clk := { State.reset.clk with syncSrc := 0, state := .paused } }
    let t : State := { s with inputs := { Inputs.zero with gateIn := Inputs.zero.gateIn.set 0 true } }
    exec .tap inTick = .next (after .tap inTick) ∧ t.midi.rx = []
    ∧ exec .load t = .next (after .load t) ∧ (after .load t).clk.state ≠ t.clk.state :=
  ⟨rfl, by decide, rfl, by decide +kernel⟩

theorem test_witness_LegalWriteReadsBack :
    regAt State.reset.cfg.nout 0x03 = some .bpm ∧ Reg.bpm.writable = true
    ∧ legalValue State.reset.cfg .bpm 300 = true ∧ legalValue State.reset.cfg .bpm 1 = true
    ∧ regAt State.reset.cfg.nout 0x13 = some (.mapa 3) ∧ legalValue State.reset.cfg (.mapa 3) 0x110F = true
    ∧ regAt State.reset.cfg.nout 0x86 = some .beatTicksLo ∧ State.reset.cfg.legal = true
    ∧ regAt State.reset.cfg.nout (0x28 + 3) = some (.mo 3) ∧ legalValue State.reset.cfg (.mo 3) 0x020F = true
    ∧ (0x13#8).toNat = 0x10 + 3 ∧ 3 < State.reset.cfg.nout := by decide

theorem test_witness_CfgrAnswersFields :
    State.reset.cfg.legal = true ∧ 3 < noutMax ∧ 3 < State.reset.cfg.nout
    ∧ (0, State.reset.outs[3].mapFn) ∈ mapFnNumbers ∧ (17, MapFn.start) ∈ mapFnNumbers
    ∧ (0, State.reset.outs[3].moFn) ∈ moFnNumbers ∧ (2, MoFn.gate) ∈ moFnNumbers := by decide

/-- A block inside a tick, holding two notes, with SEND presented. -/
def waiting : State := presented (word 0x02000000) (holding [⟨64, 90⟩, ⟨60, 80⟩] inTick)

theorem test_witness_EveryStepKeepsWf :
    waiting.Wf ∧ step waiting = .next (stepped waiting) := by
  refine ⟨⟨by decide, fun mc => ?_, by decide, by decide, by decide, by decide, by decide, by decide,
    by decide, by decide, .inl (by decide), by decide, by decide, by decide, by decide, by decide, by decide,
    by decide, by decide, by decide, by decide, by decide⟩, rfl⟩
  revert mc
  unfold distinctNotes
  decide

theorem test_witness_ResetHasWf :
    ({} : Config).legal = true ∧ ({ nout := 8, nin := 3, tapN := 5 } : Config).legal = true
    ∧ ({ codesPerSemitone := 400, ticksPerMin := 600000 } : Config).legal = true := by decide

/-- The same state. -/
theorem test_witness_StacksHoldAtMost128Notes :
    waiting.Wf ∧ (waiting.midi.stackOf 0).length ≤ 128 := ⟨test_witness_EveryStepKeepsWf.1, by decide⟩

theorem test_witness_OnlyLoadAndSendChangePhase :
    exec .load State.reset = .next (after .load State.reset)
    ∧ (after .load State.reset).phase ≠ State.reset.phase
    ∧ exec .send inTick = .next (after .send inTick) ∧ (after .send inTick).phase ≠ inTick.phase :=
  ⟨rfl, by decide, rfl, by decide⟩

theorem test_witness_OnlyLoadDecrementsCountdowns :
    exec (.startlag 3) inTick = .next (after (.startlag 3) inTick) ∧ Instr.startlag 3 ≠ .load :=
  ⟨rfl, by decide⟩

theorem test_witness_ClockPulseLastsItsLength :
    3 < ndacMax ∧ inTick.phase = .process ∧ inTick.cfg.legal = true ∧ 3 < inTick.cfg.ndac
    ∧ inTick.clkSkip = 0 ∧ (30#7).toNat ≤ (30#32).toNat % 100 ∧ (1#16) ≠ 0 ∧ (0xFFFF#16) ≠ 0 := by decide

end Sys2Proof.Tests
end

section
/-! PROOFS. The whole machine's statements of 10_state.md: a step runs the decoded command, who
writes the phase, the bound of the note stacks, and the invariant `State.Wf`, which is taken apart
into the invariants of the machine's parts (`wf_iff`), each kept part by part. -/

namespace Sys2Proof.Machine

/-! ### The step and the phase -/

/-- Settles O5: a word that decodes, presented to a block that is not faulted, runs. -/
theorem stepRunsDecodedCommand : Obligations.StepRunsDecodedCommand := by
  intro s w inputs rest i hacc hres hfault hpend hdec
  have hpresent : ({ s with pending := rest, inputs := inputs }).present w
      = .run i { s with pending := rest, inputs := inputs } := by
    simp [State.present, State.faulted, hfault, hdec]
  rw [step_command s w inputs rest hacc hres hpend, hpresent]

theorem togglePlay_cfg (s : State) : s.togglePlay.cfg = s.cfg := by rw [togglePlay_frame]

theorem togglePlay_phase (s : State) : s.togglePlay.phase = s.phase := by rw [togglePlay_frame]

theorem togglePlay_midi (s : State) : s.togglePlay.midi = s.midi := by rw [togglePlay_frame]

theorem writeReg_cfg (r : Reg) (val : BitVec 16) (s : State) : (writeReg r val s).cfg = s.cfg := by
  rw [writeReg_frame]

theorem writeReg_phase (r : Reg) (val : BitVec 16) (s : State) :
    (writeReg r val s).phase = s.phase := by
  rw [writeReg_frame]

theorem writeReg_ins (r : Reg) (val : BitVec 16) (s : State) : (writeReg r val s).ins = s.ins := by
  rw [writeReg_frame]

theorem afterDraw_cfg (s : State) : s.afterDraw.cfg = s.cfg := by rw [afterDraw_eq]

theorem afterDraw_phase (s : State) : s.afterDraw.phase = s.phase := by rw [afterDraw_eq]

theorem sendTick_cfg (s : State) : s.sendTick.cfg = s.cfg := by rw [sendTick_frame]

theorem loadTick_cfg (s : State) : s.loadTick.cfg = s.cfg := by
  obtain ⟨d, hdrain, hengine, -, -⟩ := loadTick_split s
  rw [hengine.cfg, hdrain.cfg, conditioned_cfg]

theorem loadTick_phase (s : State) : s.loadTick.phase = .process := by
  obtain ⟨d, hdrain, hengine, -, -⟩ := loadTick_split s
  rw [hengine.phase, hdrain.phase, conditioned_frame]

/-- No effect changes the parameters (10_state.md R21). -/
theorem Effect.cfg_eq {s t : State} {i : Instr} (h : Effect s i t) : t.cfg = s.cfg := by
  cases h with
  | load => exact loadTick_cfg s
  | send => exact sendTick_cfg s
  | midi | query | out | startlag | tap => rfl
  | skip | pulse => exact afterDraw_cfg s
  | playstop => exact togglePlay_cfg s
  | cfgw => exact writeReg_cfg _ _ s

/-- LOAD begins the Process phase, SEND ends it, and no other effect writes the phase (R32). -/
theorem Effect.phase_cases {s t : State} {i : Instr} (h : Effect s i t) :
    (i = .load ∧ t.phase = .process) ∨ (i = .send ∧ t.phase = .idle) ∨ t.phase = s.phase := by
  cases h with
  | load => exact .inl ⟨rfl, loadTick_phase s⟩
  | send => exact .inr (.inl ⟨rfl, rfl⟩)
  | midi | query | out | startlag | tap => exact .inr (.inr rfl)
  | skip | pulse => exact .inr (.inr (afterDraw_phase s))
  | playstop => exact .inr (.inr (togglePlay_phase s))
  | cfgw => exact .inr (.inr (writeReg_phase _ _ s))

theorem exec_cfg {i : Instr} {s t : State} (h : exec i s = .next t) : t.cfg = s.cfg := by
  rcases exec_cases h with ⟨code, -, rfl⟩ | heffect
  · rfl
  · exact heffect.cfg_eq

/-- A step never changes the parameters (R21): neither does a command, nor RESET. -/
theorem step_cfg {s t : State} (h : step s = .next t) : t.cfg = s.cfg := by
  rcases step_cases h with ⟨-, rfl⟩ | ⟨-, e, rest, -, hevent⟩
  · rfl
  rcases hevent with ⟨-, rfl⟩ | ⟨-, -, rfl⟩ | ⟨-, -, rfl⟩ | ⟨w, inputs, -, hcommand⟩
  · rfl
  · rfl
  · rfl
  rcases hcommand with ⟨-, rfl⟩ | ⟨-, -, rfl⟩ | ⟨-, -, -, rfl⟩ | ⟨-, -, i, -, hexec⟩
  · rfl
  · rfl
  · rfl
  · have hkeep := exec_cfg hexec
    exact hkeep

/-- Settles O58, by the cases of what a command and a step can do. -/
theorem onlyLoadAndSendChangePhase : Obligations.OnlyLoadAndSendChangePhase := by
  refine ⟨fun i s t h hphase => ?_, fun s t h => step_cfg h⟩
  rcases exec_cases h with ⟨code, -, rfl⟩ | heffect
  · exact absurd rfl hphase
  · rcases heffect.phase_cases with hload | hsend | hsame
    · exact .inl hload
    · exact .inr hsend
    · exact absurd hsame hphase

/-! ### The note stacks -/

/-- There are 128 notes, so different notes are at most 128 (10_state.md R38). -/
theorem length_le_of_distinctNotes {st : List NoteEntry} (h : distinctNotes st) :
    st.length ≤ 128 := by
  have hfin : (st.map fun e => e.note.toFin).Nodup := by
    have e : (st.map fun e => e.note.toFin) = (st.map NoteEntry.note).map BitVec.toFin := by simp
    rw [e]
    exact h.map fun a b hab => BitVec.eq_of_toFin_eq hab
  simpa using hfin.length_le_card

/-- The invariant's stacks, named by their MIDI channel. -/
theorem State.Wf.distinct {s : State} (h : s.Wf) (mch : BitVec 4) :
    distinctNotes (s.midi.stackOf mch) := h.noDuplicates ⟨mch.toNat, mch.isLt⟩

/-- Settles O57: a stack's notes are different, and there are 128 of them. -/
theorem stacksHoldAtMost128Notes : Obligations.StacksHoldAtMost128Notes := by
  intro s mch h
  have hlen := length_le_of_distinctNotes (h.distinct mch)
  have hmax := (Config.legal_elim h.legal).noteStacks
  exact ⟨hlen, hlen.trans hmax.2⟩

/-! ### The invariant, part by part -/

/-- The tempo's two halves lie in their ranges and agree (10_state.md R66). -/
structure TempoWf (cfg : Config) (bpm beat : Nat) : Prop where
  bpmRange : cfg.bpmMin ≤ bpm ∧ bpm ≤ cfg.bpmMax
  beatRange : cfg.btMin ≤ beat ∧ beat ≤ cfg.btMax
  agrees : tempoAgrees cfg bpm beat

/-- The invariant of the clock engine's registers (R66, R68, R72, R73, 44_clock_engine.md R268). -/
structure ClockState.Wf (cfg : Config) (k : ClockState) : Prop where
  tempo : TempoWf cfg k.bpm.toNat k.beatTicks.toNat
  shuffle : k.shuffle.toNat ≤ cfg.shuffleMax
  syncPpqn : 1 ≤ k.syncPpqn.toNat ∧ k.syncPpqn.toNat ≤ 24
  syncSrc : k.syncSrc.toNat < cfg.nin ∨ k.syncSrc.toNat = 7
  tap : k.tapBuf.length = cfg.tapN ∧ k.tapN < cfg.tapN
  noLock : k.state ≠ .running → k.syncSeen = false

/-- The invariant of the MIDI engine, but for its outbound list (R38, R44, R50, R56). -/
structure MidiState.Wf (cfg : Config) (m : MidiState) : Prop where
  distinct : ∀ mch, distinctNotes (m.stackOf mch)
  log : m.log.length ≤ cfg.logDepth
  rx : m.rx.length ≤ cfg.rxqDepth
  clkDiv : m.clkDiv ≠ 0

/-- The invariant of an input lane's countdowns (R26, R27). -/
structure InChannel.Wf (cfg : Config) (c : InChannel) : Prop where
  lag : c.lagCd.toNat ≤ cfg.adcLagTicks
  debounce : c.dbCnt.toNat < cfg.debounceTicks

/-- The invariant of an output lane's countdowns, under an engine in state `p`
(44_clock_engine.md R268, 43_midi_query_out.md R245). -/
structure OutChannel.Wf (p : ClkState) (c : OutChannel) : Prop where
  noPending : p ≠ .running → c.shufCd = 0
  release : c.noteoffCd ≠ 0 → c.sndValid = true

/-- Every input lane has its invariant, and those that do not exist hold their reset values. -/
def InsWf (cfg : Config) (v : Vector InChannel ninMax) : Prop :=
  ∀ (ch : Nat) (h : ch < ninMax), v[ch].Wf cfg ∧ (cfg.nin ≤ ch → v[ch] = .reset)

/-- Every output lane has its invariant, and those that do not exist hold their reset values. -/
def OutsWf (cfg : Config) (p : ClkState) (v : Vector OutChannel noutMax) : Prop :=
  ∀ (ch : Nat) (h : ch < noutMax), v[ch].Wf p ∧ (cfg.nout ≤ ch → v[ch] = .reset)

/-- The invariant of all parts but the outbound list: what also holds inside a tick. -/
structure State.CoreWf (s : State) : Prop where
  legal : s.cfg.legal = true
  midi : s.midi.Wf s.cfg
  clk : s.clk.Wf s.cfg
  clkSkip : s.clkSkip.toNat ≤ 100
  ins : InsWf s.cfg s.ins
  outs : OutsWf s.cfg s.clk.state s.outs

theorem State.Wf.core {s : State} (h : s.Wf) : s.CoreWf where
  legal := h.legal
  midi := ⟨h.distinct, h.logBound, h.rxBound, h.clkDivLegal⟩
  clk := ⟨⟨h.bpmLegal, h.beatLegal, h.tempo⟩, h.shuffleLegal, h.syncPpqnLegal, h.syncSrcLegal,
    h.tapBounds, h.noLock⟩
  clkSkip := h.clkSkipLegal
  ins ch hc := ⟨⟨h.lagBound ⟨ch, hc⟩, h.debounceBound ⟨ch, hc⟩⟩, h.deadIns ⟨ch, hc⟩⟩
  outs ch hc := ⟨⟨fun hp => h.noPending hp ⟨ch, hc⟩, h.release ⟨ch, hc⟩⟩, h.deadLanes ⟨ch, hc⟩⟩

/-- The block's invariant is that of its parts, and the bound of the outbound list. -/
theorem wf_iff (s : State) :
    s.Wf ↔ s.CoreWf ∧ s.midi.tx.length ≤ s.cfg.nout + 1 ∧ (s.phase = .idle → s.midi.tx = []) := by
  refine ⟨fun h => ⟨h.core, h.txBound, h.txIdle⟩, fun ⟨h, htx, hidle⟩ => ?_⟩
  exact
    { legal := h.legal
      noDuplicates := fun mc => h.midi.distinct (BitVec.ofFin mc)
      logBound := h.midi.log
      rxBound := h.midi.rx
      lagBound := fun ch => (h.ins ch ch.isLt).1.lag
      debounceBound := fun ch => (h.ins ch ch.isLt).1.debounce
      clkDivLegal := h.midi.clkDiv
      clkSkipLegal := h.clkSkip
      bpmLegal := h.clk.tempo.bpmRange
      beatLegal := h.clk.tempo.beatRange
      tempo := h.clk.tempo.agrees
      shuffleLegal := h.clk.shuffle
      syncPpqnLegal := h.clk.syncPpqn
      syncSrcLegal := h.clk.syncSrc
      tapBounds := h.clk.tap
      noLock := h.clk.noLock
      noPending := fun hp ch => (h.outs ch ch.isLt).1.noPending hp
      release := fun ch => (h.outs ch ch.isLt).1.release
      txBound := htx
      txIdle := hidle
      deadLanes := fun ch => (h.outs ch ch.isLt).2
      deadIns := fun ch => (h.ins ch ch.isLt).2 }

/-- A change that keeps the parts' invariant, the outbound list and the phase. -/
theorem State.Wf.of_core {s t : State} (h : s.Wf) (hcore : t.CoreWf) (hcfg : t.cfg = s.cfg)
    (htx : t.midi.tx = s.midi.tx) (hphase : t.phase = s.phase) : t.Wf := by
  refine (wf_iff t).mpr ⟨hcore, ?_, ?_⟩
  · rw [htx, hcfg]; exact h.txBound
  · rw [htx, hphase]; exact h.txIdle

/-- The ports, the fault latch, the response, the counters and the host's side are in no part. -/
theorem State.Wf.withPorts {s : State} (h : s.Wf) (res : Bool) (pending : List HostEvent)
    (inputs : Inputs) (draws : BitVec 32) (fault : FaultLatch) (resp : Word) :
    ({ s with
      resetAsserted := res, pending := pending, inputs := inputs, rngDraws := draws,
      fault := fault, resp := resp } : State).Wf :=
  have c := h.core
  h.of_core ⟨c.legal, c.midi, c.clk, c.clkSkip, c.ins, c.outs⟩ rfl rfl rfl

theorem State.Wf.respond {s : State} (h : s.Wf) (w : Word) : (s.respond w).Wf :=
  h.withPorts _ _ _ _ _ w

theorem State.Wf.raise {s : State} (h : s.Wf) (code : FaultCode) (w : Word) : (s.raise code w).Wf :=
  h.withPorts _ _ _ _ _ _

theorem State.Wf.afterDraw {s : State} (h : s.Wf) : s.afterDraw.Wf := by
  rw [afterDraw_eq]
  exact h.withPorts _ _ _ _ _ _

/-! ### Passes over the lanes -/

theorem OutChannel.reset_wf (p : ClkState) : OutChannel.reset.Wf p :=
  ⟨fun _ => rfl, fun h => absurd rfl h⟩

/-- A pass over the existing lanes keeps the lanes' invariant if its function keeps a lane's. -/
theorem OutsWf.mapLive {cfg : Config} {p q : ClkState} {v : Vector OutChannel noutMax}
    (h : OutsWf cfg p v) (f : OutChannel → OutChannel) (hf : ∀ c, c.Wf p → (f c).Wf q) :
    OutsWf cfg q (mapLive cfg.nout f v) := by
  intro ch hc
  obtain ⟨hlane, hdead⟩ := h ch hc
  rw [mapLive_get]
  split
  · exact ⟨hf _ hlane, fun hn => absurd hn (by omega)⟩
  · rw [hdead (by omega)]
    exact ⟨OutChannel.reset_wf q, fun _ => rfl⟩

/-- Writing an existing lane. -/
theorem OutsWf.set {cfg : Config} {p : ClkState} {v : Vector OutChannel noutMax}
    (h : OutsWf cfg p v) {i : Nat} {c : OutChannel} (hi : i < cfg.nout) (hc : c.Wf p) :
    OutsWf cfg p (v.setIfInBounds i c) := by
  intro ch hch
  rw [Vector.getElem_setIfInBounds]
  split
  · exact ⟨hc, fun hn => absurd hn (by omega)⟩
  · exact h ch hch

/-- Writing an existing input lane. -/
theorem InsWf.set {cfg : Config} {v : Vector InChannel ninMax} (h : InsWf cfg v) {i : Nat}
    {c : InChannel} (hi : i < cfg.nin) (hc : c.Wf cfg) : InsWf cfg (v.setIfInBounds i c) := by
  intro ch hch
  rw [Vector.getElem_setIfInBounds]
  split
  · exact ⟨hc, fun hn => absurd hn (by omega)⟩
  · exact h ch hch

/-- A change of a lane that leaves alone the two countdowns and whether a note sounds. -/
theorem OutChannel.Wf.of_eq {p : ClkState} {c d : OutChannel} (h : c.Wf p)
    (hs : d.shufCd = c.shufCd) (hn : d.noteoffCd = c.noteoffCd) (hv : d.sndValid = c.sndValid) :
    d.Wf p :=
  ⟨hs ▸ h.noPending, by rw [hn, hv]; exact h.release⟩

/-- Dropping a lane's pending pulse, under any engine state (44_clock_engine.md R267, R268). -/
theorem OutChannel.Wf.dropPulse {p q : ClkState} {c d : OutChannel} (h : c.Wf p)
    (hs : d.shufCd = 0) (hn : d.noteoffCd = c.noteoffCd) (hv : d.sndValid = c.sndValid) : d.Wf q :=
  ⟨fun _ => hs, by rw [hn, hv]; exact h.release⟩

/-! ### The tempo -/

theorem clampNat_range {lo hi : Nat} (v : Nat) (h : lo ≤ hi) :
    lo ≤ clampNat v lo hi ∧ clampNat v lo hi ≤ hi := by
  rw [clampNat_eq v h]
  omega

theorem bpm_le_of_legal {cfg : Config} (h : cfg.Legal) : cfg.bpmMin ≤ cfg.bpmMax := by
  obtain ⟨-, hlow, hhigh, -⟩ := h.bpm
  exact hlow.trans hhigh

theorem bt_le_of_legal {cfg : Config} (h : cfg.Legal) : cfg.btMin ≤ cfg.btMax :=
  have hr := cfg.beat_in_range h.bpm.1 (Nat.le_refl _) (bpm_le_of_legal h)
  hr.1.trans hr.2

/-- A tempo set from a legal BPM value (44_clock_engine.md R271, 45_config.md R304). -/
theorem setTempo_tempo (k : ClockState) {cfg : Config} (hc : cfg.Legal) {b : Nat}
    (hl : cfg.bpmMin ≤ b) (hu : b ≤ cfg.bpmMax) :
    TempoWf cfg (k.setTempo cfg b).bpm.toNat (k.setTempo cfg b).beatTicks.toNat := by
  obtain ⟨hmin, -, -, hmax⟩ := hc.bpm
  have hrange := cfg.beat_in_range hmin hl hu
  have hbpm : (k.setTempo cfg b).bpm.toNat = b := fitNat_toNat (by omega)
  have hbeat : (k.setTempo cfg b).beatTicks.toNat = cfg.ticksPerMin / b := by
    simp only [ClockState.setTempo]
    rw [quotient_eq _ (by omega), fitNat_toNat (hrange.2.trans_lt hc.beat.2)]
  rw [hbpm, hbeat]
  exact ⟨⟨hl, hu⟩, hrange, .inl rfl⟩

/-- A tempo measured, whatever was measured (R271). -/
theorem setMeasured_tempo (k : ClockState) {cfg : Config} (hc : cfg.Legal) (t : Nat) :
    TempoWf cfg (k.setMeasured cfg t).bpm.toNat (k.setMeasured cfg t).beatTicks.toNat := by
  have hbeat := clampNat_range t (bt_le_of_legal hc)
  have hlow := hc.beat.1
  have e : (k.setMeasured cfg t).beatTicks.toNat = clampNat t cfg.btMin cfg.btMax :=
    fitNat_toNat (hbeat.2.trans_lt hc.beat.2)
  rw [setMeasured_bpm, e, quotient_eq _ (by omega)]
  have hbpm := clampNat_range (cfg.ticksPerMin / clampNat t cfg.btMin cfg.btMax)
    (bpm_le_of_legal hc)
  obtain ⟨-, -, -, hmax⟩ := hc.bpm
  rw [fitNat_toNat (by omega)]
  exact ⟨hbpm, hbeat, .inr (clampNat_eq _ (bpm_le_of_legal hc))⟩

/-- The tempo of a tap gesture is a legal BPM value (R269). -/
theorem tapBpm_range {cfg : Config} (hc : cfg.Legal) (avg : Nat) :
    cfg.bpmMin ≤ tapBpm cfg avg ∧ tapBpm cfg avg ≤ cfg.bpmMax := by
  unfold tapBpm
  split
  · exact ⟨bpm_le_of_legal hc, Nat.le_refl _⟩
  · exact clampNat_range _ (bpm_le_of_legal hc)

/-! ### The clock engine's registers -/

/-- One interval between presses (44_clock_engine.md R269). -/
theorem tapInterval_wf {cfg : Config} (hc : cfg.Legal) {k : ClockState} (h : k.Wf cfg)
    (iv : BitVec 32) : (k.tapInterval cfg iv).Wf cfg := by
  have hlen : (k.tapBuf.set k.tapN iv).length = cfg.tapN := by rw [List.length_set]; exact h.tap.1
  have hpos : 0 < cfg.tapN := hc.tapN
  by_cases hlong : cfg.tapMaxTicks < iv.toNat
  · rw [tapInterval_long k cfg iv hlong]
    exact { h with tap := ⟨h.tap.1, hpos⟩ }
  by_cases hlast : k.tapN + 1 = cfg.tapN
  · rw [tapInterval_sets k cfg iv (by omega) hlast]
    have hb := tapBpm_range hc (tapSum (k.tapBuf.set k.tapN iv) / cfg.tapN)
    exact { h with tempo := setTempo_tempo _ hc hb.1 hb.2, tap := ⟨hlen, hpos⟩ }
  · rw [tapInterval_stores k cfg iv (by omega) hlast]
    have := h.tap.2
    exact { h with tap := ⟨hlen, show k.tapN + 1 < cfg.tapN by omega⟩ }

theorem tapPress_wf {cfg : Config} (hc : cfg.Legal) {k : ClockState} (h : k.Wf cfg)
    (now : BitVec 32) : (k.tapPress cfg now).Wf cfg := by
  cases hv : k.lastTapValid with
  | false => rw [tapPress_first k cfg now hv]; exact { h with }
  | true => rw [tapPress_next k cfg now hv]; exact { tapInterval_wf hc h (now - k.lastTap) with }

/-- A press does not move the engine's state. -/
theorem tapPress_state (k : ClockState) (cfg : Config) (now : BitVec 32) :
    (k.tapPress cfg now).state = k.state := by
  unfold ClockState.tapPress ClockState.tapInterval
  dsimp only
  split
  · split
    · rfl
    · split <;> rfl
  · rfl

/-- A sync pulse keeps the tempo or measures it anew (R276, R277). -/
theorem syncPulse_tempo {cfg : Config} (hc : cfg.Legal) {k : ClockState}
    (h : TempoWf cfg k.bpm.toNat k.beatTicks.toNat) :
    TempoWf cfg (k.syncPulse cfg).bpm.toNat (k.syncPulse cfg).beatTicks.toNat := by
  have hmeasured := setMeasured_tempo k.notePulse hc (measuredBeat cfg k.notePulse)
  unfold ClockState.syncPulse ClockState.reconcile
  dsimp only
  split <;> split
  · exact hmeasured
  · exact hmeasured
  · exact h
  · exact h

/-! ### What the dispatch of messages keeps -/

/-- The invariant that ties the lanes to the engine's state (44_clock_engine.md R268). -/
structure State.EngineWf (s : State) : Prop where
  noLock : s.clk.state ≠ .running → s.clk.syncSeen = false
  outs : OutsWf s.cfg s.clk.state s.outs

theorem State.CoreWf.engine {s : State} (h : s.CoreWf) : s.EngineWf := ⟨h.clk.noLock, h.outs⟩

/-- A pass with the dispatch's frame that leaves pending pulses alone, whatever the MIDI registers. -/
theorem State.EngineWf.forOutputs {s : State} (h : s.EngineWf) (m : MidiState)
    {f : OutChannel → OutChannel} (hf : ∀ c, LaneFrame c (f c))
    (hs : ∀ c, (f c).shufCd = c.shufCd) : (({ s with midi := m }).forOutputs f).EngineWf :=
  ⟨h.noLock, h.outs.mapLive f fun c hc => hc.of_eq (hs c) (hf c).noteoffCd (hf c).sndValid⟩

theorem State.EngineWf.forMatching {s : State} (h : s.EngineWf) (m : MidiState) (mch : BitVec 4)
    {f : OutChannel → OutChannel} (hf : ∀ c, LaneFrame c (f c))
    (hs : ∀ c, (f c).shufCd = c.shufCd) : (({ s with midi := m }).forMatching mch f).EngineWf :=
  h.forOutputs m (fun c => by split; exacts [hf c, .refl c]) (fun c => by split; exacts [hs c, rfl])

/-- The engine's invariant does not see the MIDI registers. -/
theorem State.EngineWf.withMidi {s : State} (h : s.EngineWf) (m : MidiState) :
    ({ s with midi := m } : State).EngineWf := ⟨h.noLock, h.outs⟩

/-- A start leaves no lock and no pending pulse, whatever state it enters (R267). -/
theorem State.EngineWf.startActions {s : State} (h : s.EngineWf) (p : ClkState) (e : Bool) :
    ({ s with clk := { s.clk with state := p, emitClk := e } }).startActions.EngineWf :=
  ⟨fun _ => rfl, h.outs.mapLive (fun c => { c with pulsePar := false, shufCd := 0 })
    fun _ hc => hc.dropPulse rfl rfl rfl⟩

/-- So does a stop (R268). -/
theorem State.EngineWf.stopActions {s : State} (h : s.EngineWf) (p : ClkState) (e : Bool) :
    ({ s with clk := { s.clk with state := p, emitClk := e } }).stopActions.EngineWf :=
  ⟨fun _ => rfl, h.outs.mapLive (fun c => { c with shufCd := 0 })
    fun _ hc => hc.dropPulse rfl rfl rfl⟩

theorem selectNote_shufCd (cfg : Config) (st : List NoteEntry) (c : OutChannel) :
    (c.selectNote cfg st).shufCd = c.shufCd := by
  unfold OutChannel.selectNote; split <;> rfl

theorem onNoteOnLane_shufCd (cfg : Config) (st : List NoteEntry) (v : BitVec 7) (c : OutChannel) :
    (c.onNoteOn cfg st v).shufCd = c.shufCd := by
  unfold OutChannel.onNoteOn
  cases c.mapFn with
  | noteLast | notePoly2 | notePoly3 | notePoly4 | noteMin | noteMax | notePedal | noteInv =>
    exact selectNote_shufCd cfg st c
  | _ => rfl

theorem onNoteOffLane_shufCd (cfg : Config) (st : List NoteEntry) (c : OutChannel) :
    (c.onNoteOff cfg st).shufCd = c.shufCd := by
  unfold OutChannel.onNoteOff
  cases c.mapFn with
  | noteLast | notePoly2 | notePoly3 | notePoly4 | noteMin | noteMax | notePedal | noteInv =>
    exact selectNote_shufCd cfg st c
  | gate => dsimp only; split <;> rfl
  | _ => rfl

theorem gateOff_shufCd (c : OutChannel) : c.gateOff.shufCd = c.shufCd := by
  unfold OutChannel.gateOff; split <;> rfl

theorem onCcLane_shufCd (cfg : Config) (n v : BitVec 7) (c : OutChannel) :
    (c.onCc cfg n v).shufCd = c.shufCd := by
  unfold OutChannel.onCc
  dsimp only
  split
  · split <;> split <;> rfl
  · rfl

theorem onPressure_shufCd (cfg : Config) (v : BitVec 7) (c : OutChannel) :
    (c.onPressure cfg v).shufCd = c.shufCd := by
  unfold OutChannel.onPressure; split <;> rfl

theorem onBendLane_shufCd (cfg : Config) (v : Nat) (c : OutChannel) :
    (c.onBend cfg v).shufCd = c.shufCd := by
  unfold OutChannel.onBend; split <;> rfl

theorem requestTrig_shufCd (fn : MapFn) (c : OutChannel) :
    (c.requestTrig fn).shufCd = c.shufCd := by
  unfold OutChannel.requestTrig; split <;> rfl

theorem State.EngineWf.transportStart {s : State} (h : s.EngineWf) : s.transportStart.EngineWf :=
  (h.forOutputs _ (requestTrig_frame .start) (requestTrig_shufCd .start)).startActions _ _

theorem State.EngineWf.transportStop {s : State} (h : s.EngineWf) : s.transportStop.EngineWf :=
  (h.forOutputs _ gateOff_frame gateOff_shufCd).stopActions _ _

theorem State.EngineWf.onCc {s : State} (h : s.EngineWf) (mch : BitVec 4) (m : MidiMsg) :
    (s.onCc mch m).EngineWf := by
  unfold State.onCc State.sustainOn State.sustainOff
  split
  · split
    · split
      · exact h
      · exact h.withMidi _
    · dsimp only
      split
      · exact h.forMatching _ mch gateOff_frame gateOff_shufCd
      · exact h.withMidi _
  · exact h.forMatching s.midi mch (onCcLane_frame _ _ _) (onCcLane_shufCd _ _ _)

/-- The rule of every dispatched type keeps the engine's invariant (42_midi_in.md R194). -/
theorem State.EngineWf.onKind {s : State} (h : s.EngineWf) (k : MsgKind) (m : MidiMsg) :
    (s.onKind k m).EngineWf := by
  cases k with
  | noteOff mch =>
    simp only [State.onKind, State.onNoteOff]
    split
    · exact h.withMidi _
    · exact h.forMatching _ mch (onNoteOffLane_frame _ _) (onNoteOffLane_shufCd _ _)
  | noteOn mch =>
    exact h.forMatching _ mch (onNoteOnLane_frame _ _ _) (onNoteOnLane_shufCd _ _ _)
  | atPoly mch =>
    simp only [State.onKind, State.onAtPoly]
    split
    · exact h.forMatching s.midi mch (onPressure_frame _ _) (onPressure_shufCd _ _)
    · exact h
  | cc mch => exact h.onCc mch m
  | atChan mch => exact h.forMatching s.midi mch (onPressure_frame _ _) (onPressure_shufCd _ _)
  | pbend mch => exact h.forMatching s.midi mch (onBendLane_frame _ _) (onBendLane_shufCd _ _)
  | clock =>
    simp only [State.onKind, State.onClock]
    split
    · exact h.forOutputs _ (requestTrig_frame .clock) (requestTrig_shufCd .clock)
    · exact h.withMidi _
  | start | cont => exact h.transportStart
  | stop | sysReset => exact h.transportStop

theorem State.EngineWf.processMidi {s : State} (h : s.EngineWf) (m : MidiMsg) :
    (s.processMidi m).EngineWf := by
  cases hk : m.kind with
  | none => rw [processMidi_none s m hk]; exact h
  | some k =>
    rw [processMidi_some s m k hk, logMessage_eq]
    exact (h.withMidi _).onKind k m

/-- An insertion keeps the log within a positive depth (42_midi_in.md R195). -/
theorem logInsert_length_le {depth : Nat} {log : List LogEntry} (hd : 1 ≤ depth)
    (h : log.length ≤ depth) (e : LogEntry) : (logInsert depth log e).length ≤ depth := by
  unfold logInsert
  rw [List.length_append, List.length_singleton]
  split
  · rw [List.length_tail]; omega
  · omega

theorem logMessage_length_le {s : State} (hd : 1 ≤ s.cfg.logDepth)
    (h : s.midi.log.length ≤ s.cfg.logDepth) (k : MsgKind) (m : MidiMsg) :
    (s.logMessage k m).midi.log.length ≤ s.cfg.logDepth := by
  unfold State.logMessage
  split
  · exact h
  · exact logInsert_length_le hd h _

theorem processMidi_log_length_le {s : State} (hd : 1 ≤ s.cfg.logDepth)
    (h : s.midi.log.length ≤ s.cfg.logDepth) (m : MidiMsg) :
    (s.processMidi m).midi.log.length ≤ s.cfg.logDepth := by
  cases hk : m.kind with
  | none => rw [processMidi_none s m hk]; exact h
  | some k => rw [processMidi_some s m k hk, onKind_log]; exact logMessage_length_le hd h k m

theorem processMidi_midiWf {s : State} (h : s.CoreWf) (m : MidiMsg) :
    (s.processMidi m).midi.Wf s.cfg := by
  have hframe := processMidi_frame s m
  exact
    { distinct := processMidi_distinct s m h.midi.distinct
      log := processMidi_log_length_le (Config.legal_elim h.legal).logDepth h.midi.log m
      rx := by rw [hframe.rx]; exact h.midi.rx
      clkDiv := by rw [hframe.clkDiv]; exact h.midi.clkDiv }

/-- A change with the dispatch's frame keeps the parts' invariant if it keeps what the frame does
not fix: the MIDI registers and the engine's state with its lanes. -/
theorem State.CoreWf.of_drainFrame {s t : State} (h : s.CoreWf) (hframe : DrainFrame s t)
    (hmidi : t.midi.Wf s.cfg) (hengine : t.EngineWf) : t.CoreWf where
  legal := by rw [hframe.cfg]; exact h.legal
  midi := by rw [hframe.cfg]; exact hmidi
  clk :=
    { tempo := by rw [hframe.cfg, hframe.bpm, hframe.beatTicks]; exact h.clk.tempo
      shuffle := by rw [hframe.cfg, hframe.shuffle]; exact h.clk.shuffle
      syncPpqn := by rw [hframe.syncPpqn]; exact h.clk.syncPpqn
      syncSrc := by rw [hframe.cfg, hframe.syncSrc]; exact h.clk.syncSrc
      tap := by rw [hframe.cfg, hframe.tapBuf, hframe.tapN]; exact h.clk.tap
      noLock := hengine.noLock }
  clkSkip := by rw [hframe.clkSkip]; exact h.clkSkip
  ins := by rw [hframe.cfg, hframe.ins]; exact h.ins
  outs := hengine.outs

theorem State.CoreWf.processMidi {s : State} (h : s.CoreWf) (m : MidiMsg) :
    (s.processMidi m).CoreWf :=
  h.of_drainFrame (processMidi_frame s m) (processMidi_midiWf h m) (h.engine.processMidi m)

theorem State.CoreWf.foldl_processMidi {s : State} (h : s.CoreWf) (ms : List MidiMsg) :
    (ms.foldl State.processMidi s).CoreWf :=
  foldl_processMidi_keeps (fun _ m hs => hs.processMidi m) ms s h

/-- `PLAYSTOP` moves the engine as a start, a stop or a pause (44_clock_engine.md R262). -/
theorem State.EngineWf.togglePlay {s : State} (h : s.EngineWf) : s.togglePlay.EngineWf := by
  unfold State.togglePlay
  cases hp : s.clk.state with
  | running => exact h.stopActions .stopped s.clk.emitClk
  | stopped =>
    have hne : s.clk.state ≠ .running := by simp [hp]
    exact ⟨fun _ => h.noLock hne, fun ch hc => ⟨⟨fun _ => (h.outs ch hc).1.noPending hne,
      (h.outs ch hc).1.release⟩, (h.outs ch hc).2⟩⟩
  | paused => exact h.startActions .running s.clk.emitClk

theorem togglePlay_drainFrame (s : State) : DrainFrame s s.togglePlay := by
  unfold State.togglePlay
  split
  · exact (setClkState_frame s _).trans (stopActions_frame _)
  · exact setClkState_frame s _
  · exact (setClkState_frame s _).trans (startActions_frame _)

theorem State.CoreWf.togglePlay {s : State} (h : s.CoreWf) : s.togglePlay.CoreWf :=
  h.of_drainFrame (togglePlay_drainFrame s) (by rw [togglePlay_midi]; exact h.midi)
    h.engine.togglePlay

/-! ### What the clock step keeps -/

/-- The tempo's invariant, of a state. -/
def State.TempoOk (s : State) : Prop := TempoWf s.cfg s.clk.bpm.toNat s.clk.beatTicks.toNat

theorem runBeat_tempo {s : State} (h : s.TempoOk) : s.runBeat.TempoOk := by
  unfold State.TempoOk
  rw [(runBeat_engine s).cfg, runBeat_clk, advance_engine]
  exact h

theorem countSinceSync_tempo {s : State} (h : s.TempoOk) : s.countSinceSync.TempoOk := by
  unfold State.countSinceSync
  split <;> exact h

theorem externalSync_tempo {s : State} (hc : s.cfg.Legal) (h : s.TempoOk) :
    s.externalSync.TempoOk := by
  unfold State.externalSync
  dsimp only
  split
  · exact syncPulse_tempo (k := ClockState.started { s.clk with state := .running }) hc h
  · exact syncPulse_tempo (k := s.clk) hc h

/-- The clock step keeps the tempo, or a pulse measures it (44_clock_engine.md R270, R277). -/
theorem clockStep_tempo {s : State} (hc : s.cfg.Legal) (h : s.TempoOk) : s.clockStep.TempoOk := by
  have hcount := countSinceSync_tempo h
  have hc' : s.countSinceSync.cfg.Legal := by rw [(countSinceSync_engine s).cfg]; exact hc
  rcases clockStep_cases s with ⟨-, e⟩ | ⟨-, -, e⟩ | ⟨-, -, e⟩ | ⟨-, -, e⟩ | ⟨-, -, e⟩ <;> rw [e]
  · exact h
  · exact h
  · exact runBeat_tempo (externalSync_tempo hc h)
  · exact runBeat_tempo hcount
  · exact runBeat_tempo (externalSync_tempo hc' hcount)

theorem runBeat_state (s : State) : s.runBeat.clk.state = s.clk.state := by
  rw [runBeat_clk, advance_engine]

/-- The clock step does nothing, or leaves the engine running. -/
theorem clockStep_eq_or_running (s : State) :
    s.clockStep = s ∨ s.clockStep.clk.state = .running := by
  rcases clockStep_cases s with ⟨-, e⟩ | ⟨-, -, e⟩ | ⟨hp, -, e⟩ | ⟨hr, -, e⟩ | ⟨hr, -, e⟩
  · exact .inl e
  · exact .inl e
  all_goals refine .inr ?_; rw [e, runBeat_state]
  · exact externalSync_state s (by simp [hp])
  · rw [countSinceSync_state, hr]
  · exact externalSync_state _ (by simp [countSinceSync_state, hr])

theorem State.CoreWf.clockStep {s : State} (h : s.CoreWf) : s.clockStep.CoreWf := by
  rcases clockStep_eq_or_running s with e | hrun
  · rw [e]; exact h
  have hframe := clockStep_frame s
  have hc := Config.legal_elim h.legal
  exact
    { legal := by rw [hframe.cfg]; exact h.legal
      midi := by rw [hframe.cfg, hframe.midi]; exact { h.midi with }
      clk :=
        { tempo := clockStep_tempo hc h.clk.tempo
          shuffle := by rw [hframe.cfg, hframe.shuffle]; exact h.clk.shuffle
          syncPpqn := by rw [hframe.syncPpqn]; exact h.clk.syncPpqn
          syncSrc := by rw [hframe.cfg, hframe.syncSrc]; exact h.clk.syncSrc
          tap := by rw [hframe.cfg, hframe.tapBuf, hframe.tapN]; exact h.clk.tap
          noLock := fun hne => absurd hrun hne }
      clkSkip := by rw [hframe.clkSkip]; exact h.clkSkip
      ins := by rw [hframe.cfg, hframe.ins]; exact h.ins
      outs := fun ch hch => by
        obtain ⟨hlane, hdead⟩ := h.outs ch hch
        refine ⟨⟨fun hne => absurd hrun hne, ?_⟩, fun hn => ?_⟩
        · rw [hframe.lane ch hch]; exact hlane.release
        · rw [hframe.cfg] at hn
          rw [hframe.dead ch hch hn]; exact hdead hn }

/-! ### What LOAD keeps -/

theorem clockDown_wf {p : ClkState} {c : OutChannel} (h : c.Wf p) : c.clockDown.Wf p := by
  unfold OutChannel.clockDown
  split
  · exact h
  · exact h.of_eq rfl rfl rfl

/-- The note stops sounding only when its countdown comes to zero (40_tick_phases.md R134). -/
theorem noteoffDown_wf {p : ClkState} {c : OutChannel} (h : c.Wf p) : c.noteoffDown.Wf p := by
  unfold OutChannel.noteoffDown
  split
  · exact h
  · rename_i hrun
    refine ⟨h.noPending, fun hleft => ?_⟩
    have hne : c.noteoffCd ≠ 1#16 := fun e => hleft (by simp [e])
    simp [OutChannel.releases, h.release hrun, hne]

theorem outStepped_wf {p : ClkState} {c : OutChannel} (h : c.Wf p) : c.stepped.Wf p :=
  noteoffDown_wf (clockDown_wf (h.of_eq (d := c.clearFlags) rfl rfl rfl))

theorem lagDown_wf {cfg : Config} {c : InChannel} (h : c.Wf cfg) : c.lagDown.Wf cfg := by
  unfold InChannel.lagDown
  split
  · exact h
  · have hlag := h.lag
    exact ⟨show (c.lagCd - 1).toNat ≤ cfg.adcLagTicks by bv_omega, h.debounce⟩

/-- The debouncer counts below `DEBOUNCE_TICKS` (40_tick_phases.md R135). -/
theorem debounce_count_lt {cfg : Config} (hc : cfg.Legal) (raw old : Bool) (cnt : BitVec 8) :
    (debounce cfg raw old cnt).2.toNat < cfg.debounceTicks := by
  obtain ⟨hmin, hmax⟩ := hc.debounceTicks
  have hzero : (0 : BitVec 8).toNat < cfg.debounceTicks := hmin
  unfold debounce
  split
  · exact hzero
  · split
    · exact hzero
    · rename_i hlt
      rw [fitNat_toNat (by omega)]
      omega

theorem inConditioned_wf {cfg : Config} (hc : cfg.Legal) {c : InChannel} (h : c.Wf cfg)
    (raw : Bool) (v : Code) : (c.conditioned cfg raw v).Wf cfg :=
  ⟨h.lag, debounce_count_lt hc raw c.gateHigh c.dbCnt⟩

/-- L1 to L4 of LOAD (40_tick_phases.md R131 to R137). -/
theorem State.CoreWf.conditioned {s : State} (h : s.CoreWf) : s.conditioned.CoreWf where
  legal := by rw [conditioned_cfg]; exact h.legal
  midi := by rw [conditioned_cfg, conditioned_midi]; exact { h.midi with rx := Nat.zero_le _ }
  clk := by rw [conditioned_cfg, conditioned_clk]; exact h.clk
  clkSkip := by rw [conditioned_frame]; exact h.clkSkip
  ins ch hch := by
    obtain ⟨hlane, hdead⟩ := h.ins ch hch
    rw [conditioned_ins, conditioned_cfg]
    split
    · exact ⟨inConditioned_wf (Config.legal_elim h.legal) (lagDown_wf hlane) _ _,
        fun hn => absurd hn (by omega)⟩
    · exact ⟨hlane, hdead⟩
  outs := by
    rw [conditioned_cfg, conditioned_clk, conditioned_outs]
    exact h.outs.mapLive _ fun _ => outStepped_wf

theorem State.CoreWf.loadTick {s : State} (h : s.CoreWf) : s.loadTick.CoreWf := by
  rw [loadTick_eq]
  exact (h.conditioned.foldl_processMidi s.midi.rx).clockStep

/-- A pass that emits at most one message per lane emits at most `NOUT`. -/
theorem emitsLive_length_le (nout : Nat) {f : OutChannel → List OutMsg}
    (hf : ∀ c, (f c).length ≤ 1) (v : Vector OutChannel noutMax) :
    (emitsLive nout f v).length ≤ nout := by
  have hflat : ∀ l : List OutChannel, (l.flatMap f).length ≤ l.length := by
    intro l
    induction l with
    | nil => exact Nat.le_refl 0
    | cons c l ih =>
      have := hf c
      simp only [List.flatMap_cons, List.length_append, List.length_cons]
      omega
  exact (hflat _).trans (List.length_take_le nout _)

theorem releaseMsgs_length_le (s : State) : s.releaseMsgs.length ≤ s.cfg.nout :=
  emitsLive_length_le _ (fun c => by split <;> simp) _

/-- A tick that begins with an empty list emits a Note-Off per output and one Clock at most
(10_state.md R58). -/
theorem loadTick_tx_length_le {s : State} (h : s.midi.tx = []) :
    s.loadTick.midi.tx.length ≤ s.cfg.nout + 1 := by
  have hdrain := foldl_processMidi_frame s.midi.rx s.conditioned
  have hrelease := releaseMsgs_length_le s
  obtain ⟨clk, hclk, htx⟩ := clockStep_tx (s.midi.rx.foldl State.processMidi s.conditioned)
  have hone : clk.length ≤ 1 := by rcases hclk with rfl | rfl <;> simp
  rw [loadTick_eq, htx, hdrain.tx, conditioned_tx, h, List.nil_append, List.length_append]
  omega

theorem State.Wf.loadTick {s : State} (h : s.Wf) (hidle : s.phase = .idle) : s.loadTick.Wf := by
  refine (wf_iff _).mpr ⟨h.core.loadTick, ?_, ?_⟩
  · rw [loadTick_cfg]; exact loadTick_tx_length_le (h.txIdle hidle)
  · rw [loadTick_phase]; exact fun hp => by cases hp

/-! ### What SEND keeps -/

/-- The path arms a release countdown only with the note it starts (43_midi_query_out.md R245). -/
theorem afterAction_wf {p : ClkState} {c : OutChannel} (h : c.Wf p) (hold : BitVec 16)
    (a : PathAction) : (c.afterAction hold a).Wf p := by
  cases a with
  | quiet => exact h
  | retrigger nn => exact ⟨h.noPending, fun _ => rfl⟩
  | start nn => exact ⟨h.noPending, fun _ => rfl⟩

theorem sendTick_outs_wf {s : State} (h : OutsWf s.cfg s.clk.state s.outs) :
    OutsWf s.cfg s.clk.state s.sendTick.outs := by
  intro ch hch
  obtain ⟨hlane, hdead⟩ := h ch hch
  rw [sendTick_lane]
  refine ⟨OutChannel.Wf.of_eq (c := if s.midi.autoOut then
    s.outs[ch].afterAction s.midi.moHold (s.actionAt ch s.outs[ch]) else s.outs[ch]) ?_ rfl rfl rfl,
    fun hn => ?_⟩
  · split
    · exact afterAction_wf hlane _ _
    · exact hlane
  · rw [actionAt_dead s ch _ hn, if_neg (Nat.not_lt.mpr hn)]
    simp [OutChannel.afterAction, hdead hn]

theorem State.Wf.sendTick {s : State} (h : s.Wf) : s.sendTick.Wf := by
  have c := h.core
  have houts := sendTick_outs_wf c.outs
  rw [sendTick_frame]
  exact (wf_iff _).mpr ⟨⟨c.legal, { c.midi with }, c.clk, c.clkSkip, c.ins, houts⟩,
    Nat.zero_le _, fun _ => rfl⟩

/-! ### What the other commands keep -/

/-- The queue takes a message only below its depth (42_midi_in.md R190). -/
theorem State.Wf.enqueue {s : State} (h : s.Wf) (m : MidiMsg) : (s.enqueue m).Wf := by
  have c := h.core
  have hqueue : (s.enqueue m).midi.Wf s.cfg ∧ (s.enqueue m).midi.tx = s.midi.tx := by
    unfold State.enqueue
    dsimp only
    split
    · exact ⟨{ c.midi with }, rfl⟩
    · have hroom : (s.midi.rx ++ [m]).length ≤ s.cfg.rxqDepth := by
        rw [List.length_append, List.length_singleton]; omega
      exact ⟨{ c.midi with rx := hroom }, rfl⟩
  exact h.of_core ⟨c.legal, hqueue.1, c.clk, c.clkSkip, c.ins, c.outs⟩ rfl hqueue.2 rfl

/-- Writing an existing output lane. -/
theorem State.Wf.setOut {s : State} (h : s.Wf) {idx : BitVec 4} {c d : OutChannel}
    (hc : s.outLane idx = some c) (hd : c.Wf s.clk.state → d.Wf s.clk.state) :
    (s.setOut idx.toNat d).Wf := by
  have k := h.core
  obtain ⟨hi, hn, rfl⟩ := outLane_some hc
  have houts := k.outs.set hn (hd (k.outs _ hi).1)
  exact h.of_core ⟨k.legal, k.midi, k.clk, k.clkSkip, k.ins, houts⟩ rfl rfl rfl

theorem afterDraw_outLane (s : State) (idx : BitVec 4) :
    s.afterDraw.outLane idx = s.outLane idx := by
  rw [afterDraw_eq]; rfl

/-- The input lane an index selects. -/
theorem inLane_some {s : State} {idx : BitVec 4} {c : InChannel} (h : s.inLane idx = some c) :
    ∃ hi : idx.toNat < ninMax, idx.toNat < s.cfg.nin ∧ c = s.ins[idx.toNat] := by
  unfold State.inLane State.inLaneAt at h
  split at h
  · obtain ⟨hi, hget⟩ := Vector.getElem?_eq_some_iff.mp h
    exact ⟨hi, ‹_›, hget.symm⟩
  · cases h

/-- `STARTLAG` arms the countdown with `ADC_LAG_TICKS` (41_frame_io.md R176). -/
theorem State.Wf.startlag {s : State} (h : s.Wf) {idx : BitVec 4} {c : InChannel}
    (hc : s.inLane idx = some c) :
    (s.setIn idx { c with lagCd := fitNat 8 s.cfg.adcLagTicks }).Wf := by
  have k := h.core
  obtain ⟨hi, hn, rfl⟩ := inLane_some hc
  have hfit := (Config.legal_elim k.legal).adcLagTicks
  have hlane : InChannel.Wf s.cfg
      { s.ins[idx.toNat] with lagCd := fitNat 8 s.cfg.adcLagTicks } :=
    ⟨(fitNat_toNat (by omega)).le, (k.ins _ hi).1.debounce⟩
  exact h.of_core ⟨k.legal, k.midi, k.clk, k.clkSkip, k.ins.set hn hlane, k.outs⟩ rfl rfl rfl

theorem State.Wf.tap {s : State} (h : s.Wf) :
    ({ s with clk := s.clk.tapPress s.cfg s.tickCount } : State).Wf := by
  have k := h.core
  have hclk := tapPress_wf (Config.legal_elim k.legal) k.clk s.tickCount
  have hstate := tapPress_state s.clk s.cfg s.tickCount
  exact h.of_core ⟨k.legal, k.midi, hclk, k.clkSkip, k.ins, hstate.symm ▸ k.outs⟩ rfl rfl rfl

/-- The lane a per-channel register belongs to (10_state.md R61). -/
def Reg.lane? : Reg → Option (BitVec 3)
  | .mapa ch | .mapb ch | .mult ch | .mo ch => some ch
  | .ctrl | .clkDiv | .clkSkip | .bpm | .shuffle | .syncPpqn | .syncSrc | .moHold => none
  | .status | .tickLo | .tickHi | .rngDraws | .sustain | .semitone | .beatTicksLo
  | .beatTicksHi | .rxqLevel | .ppqnCnt => none

theorem bankReg_some {nout : Nat} {ch : BitVec 3} {r q : Reg} (h : bankReg nout ch r = some q) :
    ch.toNat < nout ∧ q = r := by
  unfold bankReg at h
  split at h
  · exact ⟨‹_›, (Option.some.inj h).symm⟩
  · cases h

/-- A per-channel register is implemented for existing lanes only (R61, 45_config.md R302). -/
theorem regAt_lane {nout : Nat} {addr : BitVec 8} {r : Reg} {ch : BitVec 3}
    (h : regAt nout addr = some r) (hr : r.lane? = some ch) : ch.toNat < nout := by
  unfold regAt at h
  dsimp only at h
  split at h
  case h_2 | h_3 | h_4 | h_5 =>
    obtain ⟨hn, rfl⟩ := bankReg_some h
    cases hr
    exact hn
  case h_8 => cases h
  all_goals split at h <;> cases h <;> cases hr

/-- A register write leaves alone the lanes the register does not belong to. -/
theorem writeReg_lane_ne (r : Reg) (val : BitVec 16) (s : State) (ch : Nat) (h : ch < noutMax)
    (hr : ∀ b, r.lane? = some b → b.toNat ≠ ch) : (writeReg r val s).outs[ch] = s.outs[ch] := by
  cases r with
  | mapa b | mapb b | mult b | mo b =>
    simp only [writeReg, updateLane_get]
    rw [if_neg (hr b rfl)]
  | _ => rfl

theorem writeReg_outs_wf {s : State} {addr : BitVec 8} {r : Reg}
    (h : OutsWf s.cfg s.clk.state s.outs) (hr : regAt s.cfg.nout addr = some r) (val : BitVec 16) :
    OutsWf s.cfg s.clk.state (writeReg r val s).outs := by
  intro ch hch
  obtain ⟨hlane, hdead⟩ := h ch hch
  refine ⟨?_, fun hn => ?_⟩
  · rw [writeReg_lane]
    exact hlane.of_eq rfl rfl rfl
  · rw [writeReg_lane_ne r val s ch hch fun b hb => ?_]
    · exact hdead hn
    · have := regAt_lane hr hb
      omega

/-- A legal value leaves `clk_div` in 1..255 (10_state.md R44, 45_config.md R303). -/
theorem writeReg_midi_wf {s : State} {r : Reg} {val : BitVec 16} (h : s.midi.Wf s.cfg)
    (hv : legalValue s.cfg r val = true) : (writeReg r val s).midi.Wf s.cfg := by
  cases r with
  | clkDiv =>
    simp only [legalValue, decide_eq_true_eq] at hv
    have hne : val.extractLsb' 0 8 ≠ 0 := fun e => by
      have e' := congrArg BitVec.toNat e
      rw [extract_toNat, show (0 : BitVec 8).toNat = 0 from rfl] at e'
      omega
    exact { h with clkDiv := hne }
  | _ => exact { h with }

theorem writeReg_clkSkip_le {s : State} {r : Reg} {val : BitVec 16} (h : s.clkSkip.toNat ≤ 100)
    (hv : legalValue s.cfg r val = true) : (writeReg r val s).clkSkip.toNat ≤ 100 := by
  cases r with
  | clkSkip =>
    simp only [legalValue, decide_eq_true_eq] at hv
    simp only [writeReg, extract_toNat]
    omega
  | _ => exact h

/-- A legal value leaves the engine's registers in their ranges (R66, R68, R72). -/
theorem writeReg_clk_wf {s : State} {r : Reg} {val : BitVec 16} (hc : s.cfg.Legal)
    (h : s.clk.Wf s.cfg) (hv : legalValue s.cfg r val = true) :
    (writeReg r val s).clk.Wf s.cfg := by
  cases r with
  | bpm =>
    simp only [legalValue, decide_eq_true_eq] at hv
    obtain ⟨hlow, hhigh, -⟩ := hv
    exact { h with tempo := setTempo_tempo s.clk hc hlow hhigh }
  | shuffle =>
    simp only [legalValue, decide_eq_true_eq] at hv
    have e : (val.extractLsb' 0 7).toNat ≤ s.cfg.shuffleMax := by rw [extract_toNat]; omega
    exact { h with shuffle := e }
  | syncPpqn =>
    simp only [legalValue, decide_eq_true_eq] at hv
    have e : 1 ≤ (val.extractLsb' 0 5).toNat ∧ (val.extractLsb' 0 5).toNat ≤ 24 := by
      rw [extract_toNat]; omega
    exact { h with syncPpqn := e }
  | syncSrc =>
    simp only [legalValue, decide_eq_true_eq] at hv
    have e : (val.extractLsb' 0 3).toNat < s.cfg.nin ∨ (val.extractLsb' 0 3).toNat = 7 := by
      rw [extract_toNat]; omega
    exact { h with syncSrc := e }
  | _ => exact { h with }

theorem writeReg_state (r : Reg) (val : BitVec 16) (s : State) :
    (writeReg r val s).clk.state = s.clk.state := by
  rw [writeReg_frame]

/-- A legal write (45_config.md R300, R304). -/
theorem State.Wf.writeReg {s : State} (h : s.Wf) {addr : BitVec 8} {r : Reg} {val : BitVec 16}
    (hr : regAt s.cfg.nout addr = some r) (hv : legalValue s.cfg r val = true) :
    (writeReg r val s).Wf := by
  have k := h.core
  refine h.of_core ?_ (writeReg_cfg r val s) (by rw [writeReg_frame]) (writeReg_phase r val s)
  exact
    { legal := by rw [writeReg_cfg]; exact k.legal
      midi := by rw [writeReg_cfg]; exact writeReg_midi_wf k.midi hv
      clk := by rw [writeReg_cfg]; exact writeReg_clk_wf (Config.legal_elim k.legal) k.clk hv
      clkSkip := writeReg_clkSkip_le k.clkSkip hv
      ins := by rw [writeReg_cfg, writeReg_ins]; exact k.ins
      outs := by rw [writeReg_cfg, writeReg_state]; exact writeReg_outs_wf k.outs hr val }

/-! ### Reset, and every step -/

/-- A block of legal parameters has the invariant after reset (70_reset_and_hazards.md R351). -/
theorem resetWith_wf {cfg : Config} (hlegal : cfg.legal = true) : (State.resetWith cfg).Wf := by
  have hc := Config.legal_elim hlegal
  obtain ⟨hmin, hlow, hhigh, -⟩ := hc.bpm
  have hbeat := cfg.beat_in_range hmin hlow hhigh
  have e : (State.resetWith cfg).clk.beatTicks.toNat = cfg.ticksPerMin / resetBpm :=
    fitNat_toNat (hbeat.2.trans_lt hc.beat.2)
  refine (wf_iff _).mpr ⟨?_, Nat.zero_le _, fun _ => rfl⟩
  exact
    { legal := hlegal
      midi :=
        { distinct := fun mch => by
            simp [State.resetWith, MidiState.reset, MidiState.stackOf, distinctNotes]
          log := Nat.zero_le _
          rx := Nat.zero_le _
          clkDiv := (by decide : (1 : BitVec 8) ≠ 0) }
      clk :=
        { tempo := by rw [e]; exact ⟨⟨hlow, hhigh⟩, hbeat, .inl rfl⟩
          shuffle := Nat.zero_le _
          syncPpqn := (by decide : 1 ≤ (4 : BitVec 5).toNat ∧ (4 : BitVec 5).toNat ≤ 24)
          syncSrc := .inr rfl
          tap := ⟨List.length_replicate, hc.tapN⟩
          noLock := fun _ => rfl }
      clkSkip := Nat.zero_le _
      ins := fun ch hch => by
        have hlane : (State.resetWith cfg).ins[ch] = .reset := Vector.getElem_replicate hch
        rw [hlane]
        exact ⟨⟨Nat.zero_le _, hc.debounceTicks.1⟩, fun _ => rfl⟩
      outs := fun ch hch => by
        have hlane : (State.resetWith cfg).outs[ch] = .reset := Vector.getElem_replicate hch
        rw [hlane]
        exact ⟨OutChannel.reset_wf _, fun _ => rfl⟩ }

/-- Every effect of a command keeps the invariant. -/
theorem State.Wf.effect {s t : State} {i : Instr} (h : s.Wf) (heffect : Effect s i t) : t.Wf := by
  cases heffect with
  | load hidle => exact (h.loadTick hidle).respond 0
  | send => exact h.sendTick.respond 0
  | midi m => exact h.enqueue _
  | query w => exact h.respond _
  | out idx imm c hp hc =>
    exact (h.setOut hc fun k => k.of_eq (d := c.write s.cfg imm) rfl rfl rfl).respond 0
  | skip => exact h.afterDraw.respond 1
  | pulse idx imm c hp hc =>
    have hc' := (afterDraw_outLane s idx).trans hc
    exact (h.afterDraw.setOut hc' fun k =>
      k.of_eq (d := c.pulse s.cfg imm) rfl rfl rfl).respond 0
  | startlag idx c hp hc => exact (h.startlag hc).respond 0
  | playstop =>
    have ht := h.of_core h.core.togglePlay (togglePlay_cfg s)
      (congrArg MidiState.tx (togglePlay_midi s)) (togglePlay_phase s)
    exact ht.respond 0
  | tap => exact h.tap.respond 0
  | cfgw addr val r hr hw hv => exact (h.writeReg hr hv).respond 0

theorem State.Wf.exec {s t : State} {i : Instr} (h : s.Wf) (hexec : exec i s = .next t) : t.Wf := by
  rcases exec_cases hexec with ⟨code, -, rfl⟩ | heffect
  · exact h.raise code _
  · exact h.effect heffect

/-- Settles O55, by the cases of a step: the host's events change no part of the invariant, RESET
establishes it, and every effect of a command keeps it part by part. -/
theorem everyStepKeepsWf : Obligations.EveryStepKeepsWf := by
  intro s t h hstep
  have hports := h.withPorts
  rcases step_cases hstep with ⟨-, rfl⟩ | ⟨-, e, rest, -, hevent⟩
  · exact h
  rcases hevent with ⟨-, rfl⟩ | ⟨-, -, rfl⟩ | ⟨-, -, rfl⟩ | ⟨w, inputs, -, hcommand⟩
  · exact hports true rest _ _ _ _
  · exact (resetWith_wf h.legal).withPorts _ rest s.inputs _ _ _
  · exact hports _ rest _ _ _ _
  have hq := hports s.resetAsserted rest inputs s.rngDraws s.fault s.resp
  rcases hcommand with ⟨-, rfl⟩ | ⟨-, -, rfl⟩ | ⟨-, -, -, rfl⟩ | ⟨-, -, i, -, hexec⟩
  · exact hports _ rest _ _ _ _
  · exact hq.respond allOnes
  · exact hq.raise .illegalCommand w
  · exact hq.exec hexec

end Sys2Proof.Machine
end

section
/-! PROOFS. The statement of 20_memory.md R85: a query reads no response, so it answers again what it
answered (`exec_query_respond`), and every effect but LOAD's keeps the one-tick flags
(`Effect.flagsKept`). -/

namespace Sys2Proof.Machine

/-! ### Queries -/

theorem queryIn_respond (i : Instr) (idx : BitVec 4) (s : State) (w : Word)
    (answer : InChannel → Word) : queryIn i idx (s.respond w) answer = queryIn i idx s answer := rfl

theorem queryOut_respond (i : Instr) (idx : BitVec 4) (s : State) (w : Word)
    (answer : OutChannel → Word) :
    queryOut i idx (s.respond w) answer = queryOut i idx s answer := rfl

theorem queryMidi_respond (i : Instr) (s : State) (w answer : Word) :
    queryMidi i (s.respond w) answer = queryMidi i s answer := rfl

theorem execLogr_respond (idx : BitVec 4) (s : State) (w : Word) :
    execLogr idx (s.respond w) = execLogr idx s := rfl

/-- No register shows the response (10_state.md R62, R63). -/
theorem readReg_respond (r : Reg) (s : State) (w : Word) :
    readReg r (s.respond w) = readReg r s := by
  cases r <;> rfl

theorem execCfgr_respond (addr : BitVec 8) (s : State) (w : Word) :
    execCfgr addr (s.respond w) = execCfgr addr s := by
  unfold execCfgr
  simp only [readReg_respond]
  rfl

/-- What a query answers, a fault included, does not depend on the response before it. -/
theorem exec_query_respond {i : Instr} (hq : i.isQuery = true) (s : State) (w : Word) :
    exec i (s.respond w) = exec i s := by
  cases i with
  | readIn | gate | clock | tsc | changed | lastcv | islag => exact queryIn_respond _ _ s w _
  | loop | outq | mout | mtrig | tock => exact queryOut_respond _ _ s w _
  | nlast | nmin | nmax | nfirst | susq | nsize => exact queryMidi_respond _ s w _
  | logr idx => exact execLogr_respond idx s w
  | cfgr addr => exact execCfgr_respond addr s w
  | _ => cases hq

/-- A fault that latches what is latched already changes the response alone. -/
theorem raise_of_fault_eq {s : State} {code : FaultCode} {w : Word}
    (h : (s.raise code w).fault = s.fault) : s.raise code w = s.respond allOnes := by
  simp only [State.raise, State.respond] at h ⊢
  rw [h]

/-- A query that leaves the latch as it was changes nothing but the response (20_memory.md R85). -/
theorem exec_query_eq_respond {i : Instr} {s t : State} (hq : i.isQuery = true)
    (h : exec i s = .next t) (hfault : t.fault = s.fault) : t = s.respond t.resp := by
  rcases exec_cases h with ⟨code, -, rfl⟩ | heffect
  · exact raise_of_fault_eq hfault
  · cases heffect with
    | query => rfl
    | midi _ _ hno => rw [hq] at hno; cases hno
    | _ => cases hq

/-! ### One-tick flags -/

/-- The one-tick flags of an output lane: two are kept, and `loop` is not cleared. -/
structure LaneFlagsKept (c d : OutChannel) : Prop where
  mTrig : d.mTrig = c.mTrig
  tock : d.tock = c.tock
  loop : c.loop = true → d.loop = true

theorem LaneFlagsKept.refl (c : OutChannel) : LaneFlagsKept c c := ⟨rfl, rfl, id⟩

theorem LaneFlagsKept.trans {a b c : OutChannel} (h : LaneFlagsKept a b) (k : LaneFlagsKept b c) :
    LaneFlagsKept a c :=
  ⟨k.mTrig.trans h.mTrig, k.tock.trans h.tock, fun hl => k.loop (h.loop hl)⟩

/-- The one-tick flags of the block are kept, and no `loop` is cleared (20_memory.md R85). -/
structure FlagsKept (s t : State) : Prop where
  clkTick : t.midi.clkTick = s.midi.clkTick
  ins : ∀ (ch : Nat) (h : ch < ninMax),
    t.ins[ch].clocked = s.ins[ch].clocked ∧ t.ins[ch].changedCv = s.ins[ch].changedCv
  outs : ∀ (ch : Nat) (h : ch < noutMax), LaneFlagsKept s.outs[ch] t.outs[ch]

theorem FlagsKept.trans {s t u : State} (h : FlagsKept s t) (k : FlagsKept t u) :
    FlagsKept s u where
  clkTick := k.clkTick.trans h.clkTick
  ins ch hc := ⟨(k.ins ch hc).1.trans (h.ins ch hc).1, (k.ins ch hc).2.trans (h.ins ch hc).2⟩
  outs ch hc := (h.outs ch hc).trans (k.outs ch hc)

/-- A change of output lanes alone, as far as flags go. -/
theorem FlagsKept.of_outs {s t : State} (hclk : t.midi.clkTick = s.midi.clkTick)
    (hins : t.ins = s.ins)
    (houts : ∀ (ch : Nat) (h : ch < noutMax), LaneFlagsKept s.outs[ch] t.outs[ch]) :
    FlagsKept s t :=
  ⟨hclk, fun ch hc => by rw [hins]; exact ⟨rfl, rfl⟩, houts⟩

/-- A change of neither lanes nor `midi_clk_tick`. -/
theorem FlagsKept.of_eq {s t : State} (hclk : t.midi.clkTick = s.midi.clkTick)
    (hins : t.ins = s.ins) (houts : t.outs = s.outs) : FlagsKept s t :=
  .of_outs hclk hins fun ch hc => by rw [houts]; exact .refl _

theorem FlagsKept.respond {s t : State} (h : FlagsKept s t) (w : Word) :
    FlagsKept s (t.respond w) := h.trans (.of_eq rfl rfl rfl)

theorem raise_flagsKept (s : State) (code : FaultCode) (w : Word) :
    FlagsKept s (s.raise code w) := .of_eq rfl rfl rfl

theorem enqueue_flagsKept (s : State) (m : MidiMsg) : FlagsKept s (s.enqueue m) := by
  have hclk : (s.enqueue m).midi.clkTick = s.midi.clkTick := by
    unfold State.enqueue
    dsimp only
    split <;> rfl
  exact .of_eq hclk rfl rfl

theorem afterDraw_flagsKept (s : State) : FlagsKept s s.afterDraw := by
  rw [afterDraw_eq]
  exact .of_eq rfl rfl rfl

/-- Writing the lane an index selects. -/
theorem setOut_flagsKept {s : State} {idx : BitVec 4} {c d : OutChannel}
    (hc : s.outLane idx = some c) (hd : LaneFlagsKept c d) :
    FlagsKept s (s.setOut idx.toNat d) := by
  obtain ⟨hi, -, rfl⟩ := outLane_some hc
  refine .of_outs rfl rfl fun ch hch => ?_
  rw [setOut_get]
  split
  · rename_i e
    subst e
    exact hd
  · exact .refl _

/-- A write to an output can only set its loopback flag (41_frame_io.md R170). -/
theorem write_flagsKept (cfg : Config) (v : Code) (c : OutChannel) :
    LaneFlagsKept c (c.write cfg v) :=
  ⟨rfl, rfl, fun hl => by simp [OutChannel.write, loopAfter, hl]⟩

/-- A clock pulse can only set the loopback flag (R171). -/
theorem pulse_flagsKept (cfg : Config) (len : BitVec 16) (c : OutChannel) :
    LaneFlagsKept c (c.pulse cfg len) :=
  ⟨rfl, rfl, fun hl => by simp [OutChannel.pulse, hl]⟩

/-- `STARTLAG` writes the lag countdown alone (R176). -/
theorem startlag_flagsKept {s : State} {idx : BitVec 4} {c : InChannel}
    (hc : s.inLane idx = some c) (lag : BitVec 8) :
    FlagsKept s (s.setIn idx { c with lagCd := lag }) := by
  obtain ⟨hi, -, rfl⟩ := inLane_some hc
  refine ⟨rfl, fun ch hch => ?_, fun _ _ => .refl _⟩
  simp only [setIn_ins, Vector.getElem_setIfInBounds]
  split
  · rename_i e
    subst e
    exact ⟨rfl, rfl⟩
  · exact ⟨rfl, rfl⟩

theorem togglePlay_flagsKept (s : State) : FlagsKept s s.togglePlay := by
  have hins : s.togglePlay.ins = s.ins := by rw [togglePlay_frame]
  refine .of_outs (congrArg MidiState.clkTick (togglePlay_midi s)) hins fun ch hch => ?_
  rw [(togglePlay_get s ch hch).1]
  exact ⟨rfl, rfl, id⟩

theorem writeReg_flagsKept (r : Reg) (val : BitVec 16) (s : State) :
    FlagsKept s (writeReg r val s) := by
  have hclk : (writeReg r val s).midi.clkTick = s.midi.clkTick := by rw [writeReg_frame]
  refine .of_outs hclk (writeReg_ins r val s) fun ch hch => ?_
  rw [writeReg_lane]
  exact ⟨rfl, rfl, id⟩

theorem afterAction_flagsKept (hold : BitVec 16) (c : OutChannel) (a : PathAction) :
    LaneFlagsKept c (c.afterAction hold a) := by
  rw [afterAction_lane]
  exact ⟨rfl, rfl, id⟩

/-- SEND ends the tick but not its flags: they last until the next LOAD (40_tick_phases.md R132). -/
theorem sendTick_flagsKept (s : State) : FlagsKept s s.sendTick := by
  have hclk : s.sendTick.midi.clkTick = s.midi.clkTick := by rw [sendTick_frame]
  have hins : s.sendTick.ins = s.ins := by rw [sendTick_frame]
  refine .of_outs hclk hins fun ch hch => ?_
  rw [sendTick_lane]
  cases s.midi.autoOut with
  | false => exact ⟨rfl, rfl, id⟩
  | true => exact (afterAction_flagsKept _ _ _).trans ⟨rfl, rfl, id⟩

/-- Every effect but LOAD's keeps the one-tick flags. -/
theorem Effect.flagsKept {s t : State} {i : Instr} (h : Effect s i t) (hload : i ≠ .load) :
    FlagsKept s t := by
  cases h with
  | load => exact absurd rfl hload
  | send => exact (sendTick_flagsKept s).respond 0
  | midi => exact enqueue_flagsKept s _
  | query | tap => exact .of_eq rfl rfl rfl
  | out idx imm c hp hc => exact (setOut_flagsKept hc (write_flagsKept _ _ c)).respond 0
  | skip => exact (afterDraw_flagsKept s).respond 1
  | pulse idx imm c hp hc =>
    have hc' := (afterDraw_outLane s idx).trans hc
    have hwrite := setOut_flagsKept hc' (pulse_flagsKept s.cfg imm c)
    exact ((afterDraw_flagsKept s).trans hwrite).respond 0
  | startlag idx c hp hc => exact (startlag_flagsKept hc _).respond 0
  | playstop => exact (togglePlay_flagsKept s).respond 0
  | cfgw addr val r => exact (writeReg_flagsKept r val s).respond 0

theorem exec_flagsKept {i : Instr} {s t : State} (h : exec i s = .next t) (hload : i ≠ .load) :
    FlagsKept s t := by
  rcases exec_cases h with ⟨code, -, rfl⟩ | heffect
  · exact raise_flagsKept s code _
  · exact heffect.flagsKept hload

/-- Settles O21: a query's next state is the one before it with a response, which no query reads; and
a command that is not LOAD keeps the one-tick flags, by the cases of its effect. -/
theorem queriesHaveNoSideEffect : Obligations.QueriesHaveNoSideEffect := by
  refine ⟨fun i s t hq h hfault => ?_, fun i s t h hload => ?_⟩
  · have ht := exec_query_eq_respond hq h hfault
    refine ⟨ht, ?_⟩
    calc exec i t = exec i (s.respond t.resp) := congrArg (exec i) ht
      _ = exec i s := exec_query_respond hq s t.resp
      _ = .next t := h
  · have hkept := exec_flagsKept h hload
    exact ⟨hkept.clkTick, hkept.ins, fun ch hch =>
      ⟨(hkept.outs ch hch).mTrig, (hkept.outs ch hch).tock, (hkept.outs ch hch).loop⟩⟩

end Sys2Proof.Machine
end

section
/-! PROOFS. The statements of 30_encoding.md. A word is the concatenation of its format's fields
(`eq_append_formC` and its like), so the reader of a format inverts its writer, and the mask test of
a row is a test of fields. `decode_arm` says once, for every opcode byte, which format the decoder
reads there and which rows of the opcode map carry that byte; the statements then go by format. -/

namespace Sys2Proof

/-! ### A word is its fields -/

theorem append_eq_append_iff {n m : Nat} {a b : BitVec n} {x y : BitVec m} :
    a ++ x = b ++ y ↔ a = b ∧ x = y := by
  refine ⟨fun h => ⟨?_, ?_⟩, fun ⟨hab, hxy⟩ => hab ▸ hxy ▸ rfl⟩
  · simpa only [BitVec.extractLsb'_append_eq_left] using congrArg (·.extractLsb' m n) h
  · simpa only [BitVec.extractLsb'_append_eq_right] using congrArg (·.extractLsb' 0 m) h

/-- Two neighbouring fields are one. -/
theorem extract_append_extract {n : Nat} (w : BitVec n) (lo hi len : Nat) :
    w.extractLsb' (lo + len) hi ++ w.extractLsb' lo len = w.extractLsb' lo (hi + len) :=
  BitVec.extractLsb'_append_extractLsb'_eq_extractLsb' rfl

/-- The fields of format Z, as R101 lays them out; so for the other formats below. -/
theorem eq_append_formZ (w : Word) : w = opByte w ++ w.extractLsb' 0 24 :=
  (BitVec.extractLsb'_append_extractLsb' (w := 8) (len := 24)).symm

theorem eq_append_formC (w : Word) : w = opByte w ++ idxField w ++ w.extractLsb' 0 20 := by
  have hhigh : opByte w ++ idxField w = w.extractLsb' 20 12 := extract_append_extract w 20 8 4
  rw [hhigh]
  exact (BitVec.extractLsb'_append_extractLsb' (w := 12) (len := 20)).symm

theorem eq_append_formV (w : Word) :
    w = opByte w ++ idxField w ++ w.extractLsb' 16 4 ++ low16 w := by
  have hhigh : opByte w ++ idxField w = w.extractLsb' 20 12 := extract_append_extract w 20 8 4
  have hzero : w.extractLsb' 20 12 ++ w.extractLsb' 16 4 = w.extractLsb' 16 16 :=
    extract_append_extract w 16 12 4
  rw [hhigh, hzero]
  exact (BitVec.extractLsb'_append_extractLsb' (w := 16) (len := 16)).symm

theorem eq_append_formR (w : Word) : w = opByte w ++ byte2 w ++ low16 w := by
  have hhigh : opByte w ++ byte2 w = w.extractLsb' 16 16 := extract_append_extract w 16 8 8
  rw [hhigh]
  exact (BitVec.extractLsb'_append_extractLsb' (w := 16) (len := 16)).symm

theorem wordR_of_fields (w : Word) : wordR (opByte w) (byte2 w) (low16 w) = w :=
  (eq_append_formR w).symm

theorem eq_append_formM (w : Word) :
    w = opByte w ++ byte2 w ++ w.extractLsb' 15 1 ++ d1Field w ++ w.extractLsb' 7 1 ++ d2Field w := by
  have hhigh : opByte w ++ byte2 w = w.extractLsb' 16 16 := extract_append_extract w 16 8 8
  have hbit15 : w.extractLsb' 16 16 ++ w.extractLsb' 15 1 = w.extractLsb' 15 17 :=
    extract_append_extract w 15 16 1
  have hd1 : w.extractLsb' 15 17 ++ d1Field w = w.extractLsb' 8 24 := extract_append_extract w 8 17 7
  have hbit7 : w.extractLsb' 8 24 ++ w.extractLsb' 7 1 = w.extractLsb' 7 25 :=
    extract_append_extract w 7 24 1
  rw [hhigh, hbit15, hd1, hbit7]
  exact (BitVec.extractLsb'_append_extractLsb' (w := 25) (len := 7)).symm

/-- A status byte is its two nibbles (R102). -/
theorem voiceStatus_nibbles (status : BitVec 8) :
    voiceStatus (status.extractLsb' 4 4) (status.extractLsb' 0 4) = status :=
  BitVec.extractLsb'_append_extractLsb' (w := 4) (len := 4)

theorem eq_voiceStatus_iff {status : BitVec 8} {typ mch : BitVec 4} :
    status = voiceStatus typ mch
      ↔ status.extractLsb' 4 4 = typ ∧ status.extractLsb' 0 4 = mch := by
  conv_lhs => rw [← voiceStatus_nibbles status]
  exact append_eq_append_iff

/-! ### The fields of a written word -/

theorem wordZ_zero (op : BitVec 8) : (wordZ op).extractLsb' 0 24 = 0 :=
  BitVec.extractLsb'_append_eq_right

theorem wordC_fields (op : BitVec 8) (idx : BitVec 4) :
    idxField (wordC op idx) = idx ∧ (wordC op idx).extractLsb' 0 20 = 0 := by
  have h : op ++ idx ++ 0#20 = _ := eq_append_formC (wordC op idx)
  simp only [append_eq_append_iff] at h
  obtain ⟨⟨-, hidx⟩, hzero⟩ := h
  exact ⟨hidx.symm, hzero.symm⟩

theorem wordV_fields (op : BitVec 8) (idx : BitVec 4) (imm : BitVec 16) :
    idxField (wordV op idx imm) = idx ∧ (wordV op idx imm).extractLsb' 16 4 = 0
      ∧ low16 (wordV op idx imm) = imm := by
  have h : op ++ idx ++ 0#4 ++ imm = _ := eq_append_formV (wordV op idx imm)
  simp only [append_eq_append_iff] at h
  obtain ⟨⟨⟨-, hidx⟩, hzero⟩, himm⟩ := h
  exact ⟨hidx.symm, hzero.symm, himm.symm⟩

theorem wordR_fields (op addr : BitVec 8) (val : BitVec 16) :
    byte2 (wordR op addr val) = addr ∧ low16 (wordR op addr val) = val := by
  have h : op ++ addr ++ val = _ := eq_append_formR (wordR op addr val)
  simp only [append_eq_append_iff] at h
  obtain ⟨⟨-, haddr⟩, hval⟩ := h
  exact ⟨haddr.symm, hval.symm⟩

theorem wordM_fields (status : BitVec 8) (d1 d2 : BitVec 7) :
    byte2 (wordM status d1 d2) = status ∧ (wordM status d1 d2).extractLsb' 15 1 = 0
      ∧ d1Field (wordM status d1 d2) = d1 ∧ (wordM status d1 d2).extractLsb' 7 1 = 0
      ∧ d2Field (wordM status d1 d2) = d2 := by
  have h : 0x10#8 ++ status ++ 0#1 ++ d1 ++ 0#1 ++ d2 = _ := eq_append_formM (wordM status d1 d2)
  simp only [append_eq_append_iff] at h
  obtain ⟨⟨⟨⟨⟨-, hstatus⟩, hbit15⟩, hd1⟩, hbit7⟩, hd2⟩ := h
  exact ⟨hstatus.symm, hbit15.symm, hd1.symm, hbit7.symm, hd2.symm⟩

/-! ### Each format's reader inverts its writer -/

theorem requireZero_eq_ok {b : Bool} {i j : Instr} :
    requireZero b i = .ok j ↔ b = true ∧ i = j := by
  cases b <;> simp [requireZero]

theorem requireZero_toOption (b : Bool) (i : Instr) :
    (requireZero b i).toOption = if b then some i else none := by
  cases b <;> rfl

/-- The two `zero` bits of format M (R101). -/
def reservedClear (w : Word) : Bool := w.extractLsb' 15 1 == 0 && w.extractLsb' 7 1 == 0

theorem extract_one_eq_zero (w : Word) (k : Nat) : (w.extractLsb' k 1 == 0) = !w.getLsbD k := by
  have hbit : w.extractLsb' k 1 = BitVec.ofBool (w.getLsbD k) := by
    ext i hi
    simp [show i = 0 by omega]
  rw [hbit]
  cases w.getLsbD k <;> rfl

theorem formM_eq (w : Word) :
    formM w = requireZero (reservedClear w) (midiInstr (byte2 w) (d1Field w) (d2Field w)) := by
  simp only [formM, reservedClear, extract_one_eq_zero]

@[simp] theorem formZ_wordZ (op : BitVec 8) (i : Instr) : formZ (wordZ op) i = .ok i := by
  simp [formZ, requireZero, wordZ_zero]

@[simp] theorem formC_wordC (op : BitVec 8) (idx : BitVec 4) (mk : BitVec 4 → Instr) :
    formC (wordC op idx) mk = .ok (mk idx) := by
  obtain ⟨hidx, hzero⟩ := wordC_fields op idx
  simp [formC, requireZero, hidx, hzero]

@[simp] theorem formV_wordV (op : BitVec 8) (idx : BitVec 4) (imm : BitVec 16)
    (mk : BitVec 4 → BitVec 16 → Instr) : formV (wordV op idx imm) mk = .ok (mk idx imm) := by
  obtain ⟨hidx, hzero, himm⟩ := wordV_fields op idx imm
  simp [formV, requireZero, hidx, hzero, himm]

@[simp] theorem formM_wordM (status : BitVec 8) (d1 d2 : BitVec 7) :
    formM (wordM status d1 d2) = .ok (midiInstr status d1 d2) := by
  obtain ⟨hstatus, hbit15, hd1, hbit7, hd2⟩ := wordM_fields status d1 d2
  simp [formM_eq, reservedClear, requireZero, hstatus, hbit15, hd1, hbit7, hd2]

theorem formZ_ok {w : Word} {i j : Instr} (h : formZ w i = .ok j) : i = j ∧ wordZ (opByte w) = w := by
  obtain ⟨hzero, hij⟩ := requireZero_eq_ok.mp h
  refine ⟨hij, ?_⟩
  conv_rhs => rw [eq_append_formZ w, eq_of_beq hzero]
  rfl

theorem formC_ok {w : Word} {mk : BitVec 4 → Instr} {j : Instr} (h : formC w mk = .ok j) :
    mk (idxField w) = j ∧ wordC (opByte w) (idxField w) = w := by
  obtain ⟨hzero, hij⟩ := requireZero_eq_ok.mp h
  refine ⟨hij, ?_⟩
  conv_rhs => rw [eq_append_formC w, eq_of_beq hzero]
  rfl

theorem formV_ok {w : Word} {mk : BitVec 4 → BitVec 16 → Instr} {j : Instr}
    (h : formV w mk = .ok j) :
    mk (idxField w) (low16 w) = j ∧ wordV (opByte w) (idxField w) (low16 w) = w := by
  obtain ⟨hzero, hij⟩ := requireZero_eq_ok.mp h
  refine ⟨hij, ?_⟩
  conv_rhs => rw [eq_append_formV w, eq_of_beq hzero]
  rfl

theorem formM_ok {w : Word} {j : Instr} (hop : opByte w = 0x10) (h : formM w = .ok j) :
    midiInstr (byte2 w) (d1Field w) (d2Field w) = j
      ∧ wordM (byte2 w) (d1Field w) (d2Field w) = w := by
  rw [formM_eq] at h
  obtain ⟨hzero, hij⟩ := requireZero_eq_ok.mp h
  obtain ⟨hbit15, hbit7⟩ := Bool.and_eq_true_iff.mp hzero
  refine ⟨hij, ?_⟩
  conv_rhs => rw [eq_append_formM w, hop, eq_of_beq hbit15, eq_of_beq hbit7]
  rfl

/-! ### The status byte of a MIDI message -/

@[simp] theorem voiceStatus_type (typ mch : BitVec 4) :
    (voiceStatus typ mch).extractLsb' 4 4 = typ := BitVec.extractLsb'_append_eq_left

@[simp] theorem voiceStatus_channel (typ mch : BitVec 4) :
    (voiceStatus typ mch).extractLsb' 0 4 = mch := BitVec.extractLsb'_append_eq_right

/-- The command a status byte selects has that status byte in its word (R102). -/
theorem encode_midiInstr (status : BitVec 8) (d1 d2 : BitVec 7) :
    encode (midiInstr status d1 d2) = wordM status d1 d2 := by
  have hnibbles := voiceStatus_nibbles status
  unfold midiInstr
  dsimp only
  split
  case h_7 htyp =>
    rw [htyp] at hnibbles
    split
    case h_6 => rfl
    all_goals rename_i hmch; rw [hmch] at hnibbles; exact congrArg (wordM · d1 d2) hnibbles
  case h_8 => rfl
  all_goals rename_i htyp; rw [htyp] at hnibbles; exact congrArg (wordM · d1 d2) hnibbles

/-- Of the status bytes above `0xEF`, five are a row's (R102). -/
theorem dispatchedStatus_realtime {status : BitVec 8} (htyp : status.extractLsb' 4 4 = 0xF) :
    dispatchedStatus status
      = ([0x8, 0xA, 0xB, 0xC, 0xF].contains (status.extractLsb' 0 4)) := by
  obtain ⟨mch, rfl⟩ : ∃ mch, status = voiceStatus 0xF mch := ⟨_, eq_voiceStatus_iff.mpr ⟨htyp, rfl⟩⟩
  rw [voiceStatus_channel]
  clear htyp
  revert mch
  decide

/-- The command selected is well formed: `M.OTHER` is left for the status bytes no row before it
claims (R107, R111). -/
theorem midiInstr_wellFormed (status : BitVec 8) (d1 d2 : BitVec 7) :
    (midiInstr status d1 d2).wellFormed = true := by
  unfold midiInstr
  dsimp only
  split
  case h_7 htyp =>
    split
    case h_6 => simp_all [Instr.wellFormed, dispatchedStatus_realtime htyp]
    all_goals rfl
  case h_8 => simp [Instr.wellFormed, dispatchedStatus, *]
  all_goals rfl

/-- A status byte no row before `M.OTHER` claims selects it. -/
theorem midiInstr_of_not_dispatched {status : BitVec 8} (h : dispatchedStatus status = false)
    (d1 d2 : BitVec 7) : midiInstr status d1 d2 = .mOther status d1 d2 := by
  unfold midiInstr
  dsimp only
  split
  case h_7 htyp =>
    rw [dispatchedStatus_realtime htyp] at h
    split
    case h_6 => rfl
    all_goals rename_i hmch; rw [hmch] at h; exact absurd h (by decide)
  case h_8 => rfl
  all_goals simp [dispatchedStatus, *] at h

/-! ### Decoding what was encoded -/

theorem decode_wordM (status : BitVec 8) (d1 d2 : BitVec 7) :
    decode (wordM status d1 d2) = .ok (midiInstr status d1 d2) := by
  simp [decode]

/-- Settles O1: the word's opcode byte leads to the command's format, whose reader inverts the
writer. -/
theorem decodeInvertsEncode : Obligations.DecodeInvertsEncode := by
  intro i hwf
  cases i with
  | load | send | playstop | tap => simp [encode, decode]
  | readIn | gate | clock | tsc | changed | lastcv | islag | loop | outq | startlag | nlast | nmin
  | nmax | nfirst | susq | nsize | mout | mtrig | logr | tock => simp [encode, decode]
  | out | clkout => simp [encode, decode]
  | cfgw addr val =>
    obtain ⟨haddr, hval⟩ := wordR_fields 0x60 addr val
    simpa [encode, decode] using ⟨haddr, hval⟩
  | cfgr addr =>
    obtain ⟨haddr, hzero⟩ := wordR_fields 0x61 addr 0
    simp only [encode, decode, opByte_wordR, haddr, hzero]
    rfl
  | mNoteoff | mNoteon | mAtpoly | mCc | mAtchan | mPbend =>
    simp [encode, decode_wordM, midiInstr]
  | mClock | mStart | mCont | mStop | mReset => exact decode_wordM _ _ _
  | mOther status d1 d2 =>
    have hother : dispatchedStatus status = false := by simpa [Instr.wellFormed] using hwf
    exact (decode_wordM status d1 d2).trans
      (congrArg Except.ok (midiInstr_of_not_dispatched hother d1 d2))

/-! ### The arms of the decoder and the rows of the opcode map -/

/-- The first row of a list that matches a word, read. -/
def firstMatch (rows : List MapRow) (w : Word) : Option Instr :=
  (rows.find? fun r => w &&& r.mask == r.bits).map fun r => r.build w

/-- The rows of the opcode map with an opcode byte. -/
def rowsOf (op : BitVec 8) : List MapRow := opcodeMap.filter fun r => opByte r.bits == op

/-- The rows of format M, `M.OTHER` last (R107). -/
def midiRows : List MapRow :=
  [ rowVoice (wordM (voiceStatus 0x8 0) 0 0) .mNoteoff,
    rowVoice (wordM (voiceStatus 0x9 0) 0 0) .mNoteon,
    rowVoice (wordM (voiceStatus 0xA 0) 0 0) .mAtpoly,
    rowVoice (wordM (voiceStatus 0xB 0) 0 0) .mCc,
    rowVoice (wordM (voiceStatus 0xD 0) 0 0) .mAtchan,
    rowVoice (wordM (voiceStatus 0xE 0) 0 0) .mPbend,
    rowRealtime (wordM (voiceStatus 0xF 0x8) 0 0) .mClock,
    rowRealtime (wordM (voiceStatus 0xF 0xA) 0 0) .mStart,
    rowRealtime (wordM (voiceStatus 0xF 0xB) 0 0) .mCont,
    rowRealtime (wordM (voiceStatus 0xF 0xC) 0 0) .mStop,
    rowRealtime (wordM (voiceStatus 0xF 0xF) 0 0) .mReset,
    ⟨0x10000000, 0xFF008080, fun w => .mOther (byte2 w) (d1Field w) (d2Field w)⟩ ]

/-- What the decoder does with a word of a given opcode byte, format by format: how it reads the
word, how the command read is written, and the rows of the opcode map with that byte. -/
inductive DecoderArm (w : Word) : Except Illegal Instr → List MapRow → Prop
  | formZ (op : BitVec 8) (i : Instr) (hop : opByte w = op) (henc : encode i = wordZ op)
      (hwf : i.wellFormed = true) : DecoderArm w (formZ w i) [rowZ (wordZ op) i]
  | formC (op : BitVec 8) (mk : BitVec 4 → Instr) (hop : opByte w = op)
      (henc : ∀ idx, encode (mk idx) = wordC op idx) (hwf : ∀ idx, (mk idx).wellFormed = true) :
      DecoderArm w (formC w mk) [rowC (wordC op 0) mk]
  | formV (op : BitVec 8) (mk : BitVec 4 → BitVec 16 → Instr) (hop : opByte w = op)
      (henc : ∀ idx imm, encode (mk idx imm) = wordV op idx imm)
      (hwf : ∀ idx imm, (mk idx imm).wellFormed = true) :
      DecoderArm w (formV w mk) [rowV (wordV op 0 0) mk]
  | formM (hop : opByte w = 0x10) : DecoderArm w (formM w) midiRows
  | cfgw (hop : opByte w = 0x60) : DecoderArm w (.ok (.cfgw (byte2 w) (low16 w)))
      [⟨0x60000000, 0xFF000000, fun w => .cfgw (byte2 w) (low16 w)⟩]
  | cfgr (hop : opByte w = 0x61) : DecoderArm w (requireZero (low16 w == 0) (.cfgr (byte2 w)))
      [⟨0x61000000, 0xFF00FFFF, fun w => .cfgr (byte2 w)⟩]
  | unknown : DecoderArm w (.error .unknownOpcode) []

/-- The opcode bytes of R107. -/
def opcodeBytes : List (BitVec 8) :=
  [0x01, 0x02, 0x10, 0x20, 0x21, 0x22, 0x23, 0x24, 0x25, 0x26, 0x27, 0x28, 0x30, 0x31, 0x32, 0x40,
    0x41, 0x42, 0x43, 0x44, 0x45, 0x46, 0x47, 0x48, 0x50, 0x51, 0x52, 0x60, 0x61]

theorem rowsOf_eq_nil {op : BitVec 8} (h : op ∉ opcodeBytes) : rowsOf op = [] := by
  have hmap : ∀ r ∈ opcodeMap, opByte r.bits ∈ opcodeBytes := by decide
  refine List.filter_eq_nil_iff.mpr fun r hr hop => h ?_
  exact eq_of_beq hop ▸ hmap r hr

/-- Every arm of the decoder, with the rows of its opcode byte. Most are of format C; the numbered
cases are the arms of the other formats, in the decoder's order. -/
theorem decode_arm (w : Word) : DecoderArm w (decode w) (rowsOf (opByte w)) := by
  unfold decode
  split
  case h_1 hop | h_2 hop | h_25 hop | h_26 hop => rw [hop]; exact .formZ _ _ hop rfl rfl
  case h_13 hop | h_14 hop => rw [hop]; exact .formV _ _ hop (fun _ _ => rfl) (fun _ _ => rfl)
  case h_3 hop => rw [hop]; exact .formM hop
  case h_28 hop => rw [hop]; exact .cfgw hop
  case h_29 hop => rw [hop]; exact .cfgr hop
  case h_30 =>
    rw [rowsOf_eq_nil (by simp_all [opcodeBytes])]
    exact .unknown
  all_goals rename_i hop; rw [hop]; exact .formC _ _ hop (fun _ => rfl) (fun _ => rfl)

/-- Settles O2, by the decoder's arms: the reader of each format accepts its own words only. -/
theorem decodedWordIsItsEncoding : Obligations.DecodedWordIsItsEncoding := by
  intro w i h
  have harm := decode_arm w
  generalize decode w = d, rowsOf (opByte w) = rows at h harm
  cases harm with
  | formZ op j hop henc hwf =>
    obtain ⟨rfl, hw⟩ := formZ_ok h
    exact ⟨by rw [henc, ← hop, hw], hwf⟩
  | formC op mk hop henc hwf =>
    obtain ⟨rfl, hw⟩ := formC_ok h
    exact ⟨by rw [henc, ← hop, hw], hwf _⟩
  | formV op mk hop henc hwf =>
    obtain ⟨rfl, hw⟩ := formV_ok h
    exact ⟨by rw [henc, ← hop, hw], hwf _ _⟩
  | formM hop =>
    obtain ⟨rfl, hw⟩ := formM_ok hop h
    exact ⟨(encode_midiInstr _ _ _).trans hw, midiInstr_wellFormed _ _ _⟩
  | cfgw hop =>
    cases h
    have hw := wordR_of_fields w
    rw [hop] at hw
    exact ⟨hw, rfl⟩
  | cfgr hop =>
    obtain ⟨hzero, rfl⟩ := requireZero_eq_ok.mp h
    have hw := wordR_of_fields w
    rw [hop, eq_of_beq hzero] at hw
    exact ⟨hw, rfl⟩
  | unknown => cases h

/-! ### Masks test fields -/

theorem firstMatch_cons (r : MapRow) (rows : List MapRow) (w : Word) :
    firstMatch (r :: rows) w
      = if w &&& r.mask = r.bits then some (r.build w) else firstMatch rows w := by
  unfold firstMatch
  rw [List.find?_cons]
  split <;> simp_all

/-- A row at the head of the list, whose mask test is `p` and which reads the word as `i`. -/
theorem firstMatch_cons_of_iff {r : MapRow} {w : Word} {p : Prop} [Decidable p] {i : Instr}
    (hmatch : w &&& r.mask = r.bits ↔ p) (hbuild : r.build w = i) (rows : List MapRow) :
    firstMatch (r :: rows) w = if p then some i else firstMatch rows w := by
  rw [firstMatch_cons, hbuild]
  exact if_congr hmatch rfl rfl

/-- Rows that cannot match may be left out. -/
theorem firstMatch_filter {w : Word} (p : MapRow → Bool) (rows : List MapRow)
    (h : ∀ r ∈ rows, w &&& r.mask = r.bits → p r = true) :
    firstMatch (rows.filter p) w = firstMatch rows w := by
  induction rows with
  | nil => rfl
  | cons r rows ih =>
    obtain ⟨hr, hrows⟩ := List.forall_mem_cons.mp h
    rw [firstMatch_cons, ← ih hrows]
    cases hp : p r with
    | true => rw [List.filter_cons_of_pos hp, firstMatch_cons]
    | false =>
      rw [List.filter_cons_of_neg (by simp [hp]), if_neg fun hm => by simp [hr hm] at hp]

/-- Every mask holds the whole opcode byte, so a word can match rows of its own byte only. -/
theorem decodeByMap_eq_firstMatch (w : Word) : decodeByMap w = firstMatch (rowsOf (opByte w)) w := by
  have hmask : ∀ r ∈ opcodeMap, opByte r.mask = 0xFF := by decide
  refine (firstMatch_filter _ opcodeMap fun r hr h => beq_iff_eq.mpr ?_).symm
  calc opByte r.bits = opByte (w &&& r.mask) := by rw [h]
    _ = opByte w &&& opByte r.mask := BitVec.extractLsb'_and
    _ = opByte w := by rw [hmask r hr]; exact BitVec.and_allOnes

/-- Masking field by field. -/
theorem and_append_eq_iff {n m : Nat} {a k b : BitVec n} {x l y : BitVec m} :
    (a ++ x) &&& (k ++ l) = b ++ y ↔ a &&& k = b ∧ x &&& l = y := by
  rw [BitVec.and_append, append_eq_append_iff]

theorem and_maskZ (w : Word) : w &&& 0xFFFFFFFF = wordZ (opByte w) ↔ w.extractLsb' 0 24 = 0 := by
  have h : (opByte w ++ w.extractLsb' 0 24) &&& (BitVec.allOnes 8 ++ BitVec.allOnes 24)
        = opByte w ++ 0#24
      ↔ w.extractLsb' 0 24 = 0#24 := by
    simp only [and_append_eq_iff, BitVec.and_allOnes, true_and]
  rw [← eq_append_formZ] at h
  exact h

theorem and_maskC (w : Word) :
    w &&& 0xFF0FFFFF = wordC (opByte w) 0 ↔ w.extractLsb' 0 20 = 0 := by
  have h : (opByte w ++ idxField w ++ w.extractLsb' 0 20)
          &&& (BitVec.allOnes 8 ++ 0#4 ++ BitVec.allOnes 20)
        = opByte w ++ 0#4 ++ 0#20
      ↔ w.extractLsb' 0 20 = 0#20 := by
    simp only [and_append_eq_iff, BitVec.and_allOnes, BitVec.and_zero, true_and]
  rw [← eq_append_formC] at h
  exact h

theorem and_maskV (w : Word) :
    w &&& 0xFF0F0000 = wordV (opByte w) 0 0 ↔ w.extractLsb' 16 4 = 0 := by
  have h : (opByte w ++ idxField w ++ w.extractLsb' 16 4 ++ low16 w)
          &&& (BitVec.allOnes 8 ++ 0#4 ++ BitVec.allOnes 4 ++ 0#16)
        = opByte w ++ 0#4 ++ 0#4 ++ 0#16
      ↔ w.extractLsb' 16 4 = 0#4 := by
    simp only [and_append_eq_iff, BitVec.and_allOnes, BitVec.and_zero, true_and, and_true]
  rw [← eq_append_formV] at h
  exact h

/-- Format R: the address is free, and the value is masked by `m`. -/
theorem and_maskR (w : Word) (m : BitVec 16) :
    w &&& wordR 0xFF 0 m = wordR (opByte w) 0 0 ↔ low16 w &&& m = 0 := by
  have h : (opByte w ++ byte2 w ++ low16 w) &&& (BitVec.allOnes 8 ++ 0#8 ++ m)
        = opByte w ++ 0#8 ++ 0#16
      ↔ low16 w &&& m = 0#16 := by
    simp only [and_append_eq_iff, BitVec.and_allOnes, BitVec.and_zero, true_and]
  rw [← eq_append_formR] at h
  exact h

/-- The mask of a row of format M whose status byte is masked by `m`. -/
def maskM (m : BitVec 8) : Word := 0xFF#8 ++ m ++ 1#1 ++ 0#7 ++ 1#1 ++ 0#7

theorem and_maskM {w : Word} (hop : opByte w = 0x10) (m status : BitVec 8) :
    w &&& maskM m = wordM status 0 0 ↔ byte2 w &&& m = status ∧ reservedClear w = true := by
  have h : (opByte w ++ byte2 w ++ w.extractLsb' 15 1 ++ d1Field w ++ w.extractLsb' 7 1 ++ d2Field w)
          &&& (BitVec.allOnes 8 ++ m ++ BitVec.allOnes 1 ++ 0#7 ++ BitVec.allOnes 1 ++ 0#7)
        = 0x10#8 ++ status ++ 0#1 ++ 0#7 ++ 0#1 ++ 0#7
      ↔ byte2 w &&& m = status ∧ reservedClear w = true := by
    simp only [and_append_eq_iff, BitVec.and_allOnes, BitVec.and_zero, and_true, hop,
      reservedClear, Bool.and_eq_true, beq_iff_eq]
    exact ⟨fun ⟨⟨⟨_, hs⟩, h15⟩, h7⟩ => ⟨hs, h15, h7⟩, fun ⟨hs, h15, h7⟩ => ⟨⟨⟨rfl, hs⟩, h15⟩, h7⟩⟩
  rw [← eq_append_formM] at h
  exact h

/-- The status mask of a channel voice row leaves the MIDI channel free (R102). -/
theorem status_and_type (status : BitVec 8) (typ : BitVec 4) :
    status &&& 0xF0 = voiceStatus typ 0 ↔ status.extractLsb' 4 4 = typ := by
  have h : (status.extractLsb' 4 4 ++ status.extractLsb' 0 4) &&& (BitVec.allOnes 4 ++ 0#4)
        = typ ++ 0#4
      ↔ status.extractLsb' 4 4 = typ := by
    simp only [and_append_eq_iff, BitVec.and_allOnes, BitVec.and_zero, and_true]
  have hnibbles : status.extractLsb' 4 4 ++ status.extractLsb' 0 4 = status :=
    voiceStatus_nibbles status
  rw [hnibbles] at h
  exact h

/-! ### The rows of each format are its reader -/

/-- A format whose `zero` field is what its one row's mask tests. -/
theorem requireZero_toOption_eq_firstMatch {r : MapRow} {w : Word} {b : Bool}
    (hmatch : w &&& r.mask = r.bits ↔ b = true) :
    (requireZero b (r.build w)).toOption = firstMatch [r] w :=
  (requireZero_toOption b (r.build w)).trans (firstMatch_cons_of_iff hmatch rfl []).symm

theorem formZ_toOption (w : Word) (i : Instr) :
    (formZ w i).toOption = firstMatch [rowZ (wordZ (opByte w)) i] w :=
  requireZero_toOption_eq_firstMatch (r := rowZ _ i) ((and_maskZ w).trans beq_iff_eq.symm)

theorem formC_toOption (w : Word) (mk : BitVec 4 → Instr) :
    (formC w mk).toOption = firstMatch [rowC (wordC (opByte w) 0) mk] w :=
  requireZero_toOption_eq_firstMatch (r := rowC _ mk) ((and_maskC w).trans beq_iff_eq.symm)

theorem formV_toOption (w : Word) (mk : BitVec 4 → BitVec 16 → Instr) :
    (formV w mk).toOption = firstMatch [rowV (wordV (opByte w) 0 0) mk] w :=
  requireZero_toOption_eq_firstMatch (r := rowV _ mk) ((and_maskV w).trans beq_iff_eq.symm)

section FormM

variable {w : Word} (hop : opByte w = 0x10) (rows : List MapRow)
include hop

theorem firstMatch_rowVoice (typ : BitVec 4) (mk : BitVec 4 → BitVec 7 → BitVec 7 → Instr) :
    firstMatch (rowVoice (wordM (voiceStatus typ 0) 0 0) mk :: rows) w
      = if (byte2 w).extractLsb' 4 4 = typ ∧ reservedClear w = true
        then some (mk ((byte2 w).extractLsb' 0 4) (d1Field w) (d2Field w))
        else firstMatch rows w := by
  have hmch : w.extractLsb' 16 4 = (byte2 w).extractLsb' 0 4 := by
    apply BitVec.eq_of_toNat_eq
    rw [extract_toNat, extract_toNat, byte2_toNat]
    omega
  have hmask := and_maskM hop 0xF0 (voiceStatus typ 0)
  rw [status_and_type] at hmask
  exact firstMatch_cons_of_iff hmask (congrArg (mk · _ _) hmch) rows

theorem firstMatch_rowRealtime (typ mch : BitVec 4) (mk : BitVec 7 → BitVec 7 → Instr) :
    firstMatch (rowRealtime (wordM (voiceStatus typ mch) 0 0) mk :: rows) w
      = if ((byte2 w).extractLsb' 4 4 = typ ∧ (byte2 w).extractLsb' 0 4 = mch)
          ∧ reservedClear w = true
        then some (mk (d1Field w) (d2Field w))
        else firstMatch rows w := by
  have hmask := and_maskM hop (BitVec.allOnes 8) (voiceStatus typ mch)
  rw [BitVec.and_allOnes, eq_voiceStatus_iff] at hmask
  exact firstMatch_cons_of_iff hmask rfl rows

/-- The row of `M.OTHER` leaves the status byte free. -/
theorem firstMatch_rowOther :
    firstMatch [⟨0x10000000, 0xFF008080, fun w => .mOther (byte2 w) (d1Field w) (d2Field w)⟩] w
      = if reservedClear w = true then some (.mOther (byte2 w) (d1Field w) (d2Field w))
        else none := by
  have hmask := and_maskM hop 0#8 0#8
  simp only [BitVec.and_zero, true_and] at hmask
  exact firstMatch_cons_of_iff hmask rfl []

/-- The rows of format M, tried in order, select by status byte as the decoder does. -/
theorem formM_toOption : (formM w).toOption = firstMatch midiRows w := by
  rw [formM_eq, requireZero_toOption]
  simp only [midiRows, firstMatch_rowVoice hop, firstMatch_rowRealtime hop, firstMatch_rowOther hop]
  cases reservedClear w with
  | false => simp
  | true =>
    simp only [and_true, if_true]
    unfold midiInstr
    dsimp only
    split
    case h_7 htyp =>
      simp only [htyp]
      split
      case h_6 => simp_all
      all_goals simp [*]
    case h_8 => simp_all
    all_goals simp [*]

end FormM

theorem cfgw_matches {w : Word} (hop : opByte w = 0x60) : w &&& 0xFF000000 = 0x60000000 := by
  have hmask := and_maskR w 0#16
  rw [hop, BitVec.and_zero] at hmask
  exact hmask.mpr rfl

theorem cfgr_matches_iff {w : Word} (hop : opByte w = 0x61) :
    w &&& 0xFF00FFFF = 0x61000000 ↔ low16 w = 0 := by
  have hmask := and_maskR w (BitVec.allOnes 16)
  rw [hop, BitVec.and_allOnes] at hmask
  exact hmask

/-- Settles O3, by the decoder's arms: the rows with the word's opcode byte are those of its format,
and their masks test what the format's reader tests. -/
theorem decoderFollowsOpcodeMap : Obligations.DecoderFollowsOpcodeMap := by
  intro w
  rw [decodeByMap_eq_firstMatch]
  have harm := decode_arm w
  generalize decode w = d, rowsOf (opByte w) = rows at harm
  cases harm with
  | formZ op i hop => subst hop; exact formZ_toOption w i
  | formC op mk hop => subst hop; exact formC_toOption w mk
  | formV op mk hop => subst hop; exact formV_toOption w mk
  | formM hop => exact formM_toOption hop
  | cfgw hop => exact ((firstMatch_cons _ _ w).trans (if_pos (cfgw_matches hop))).symm
  | cfgr hop =>
    exact requireZero_toOption_eq_firstMatch (r := ⟨_, _, fun w => .cfgr (byte2 w)⟩)
      ((cfgr_matches_iff hop).trans beq_iff_eq.symm)
  | unknown => rfl

/-- Settles O4: the words are the spec's own, and the decoder evaluates on them. -/
theorem specWordsDecode : Obligations.SpecWordsDecode :=
  ⟨rfl, rfl, rfl, rfl, rfl, rfl, rfl, rfl, rfl⟩

end Sys2Proof
end

section
/-! PROOFS. The statements of 40_tick_phases.md. A lane after LOAD is what L1 to L4 make of it
(`stepped_eq`), changed by the drain and the clock step in nothing those statements speak of
(`loadTick_lane`); a lane after SEND is `sendTick_lane`. The countdowns of the other commands follow
from the effects of a command (`Effect`), and the length of a clock pulse from an induction over
empty ticks. -/

namespace Sys2Proof.Machine

/-! ### LOAD -/

theorem exec_load_of_idle {s : State} (h : s.phase = .idle) :
    exec .load s = .next (s.loadTick.respond 0) := by
  simp [exec, execLoad, h]

/-- The clock-output countdown, without a case split (R133). -/
theorem clockDown_eq (c : OutChannel) : c.clockDown = { c with
    clockCd := if c.clockCd = 0 then 0 else c.clockCd - 1
    out := if c.clockCd = 1 then 0 else c.out } := by
  unfold OutChannel.clockDown
  split
  · cases c; simp_all
  · rfl

/-- The note-off countdown, without a case split (R134). -/
theorem noteoffDown_eq (c : OutChannel) : c.noteoffDown = { c with
    noteoffCd := if c.noteoffCd = 0 then 0 else c.noteoffCd - 1
    sndValid := c.sndValid && c.noteoffCd != 1 } := by
  unfold OutChannel.noteoffDown
  split
  · cases c; simp_all
  · cases hvalid : c.sndValid <;> simp [OutChannel.releases, hvalid, bne]

/-- What L1 to L4 do to an output lane that exists (R132 to R134). -/
theorem stepped_eq (c : OutChannel) : c.stepped = { c with
    loop := false, mTrig := false, tock := false
    clockCd := if c.clockCd = 0 then 0 else c.clockCd - 1
    out := if c.clockCd = 1 then 0 else c.out
    noteoffCd := if c.noteoffCd = 0 then 0 else c.noteoffCd - 1
    sndValid := c.sndValid && c.noteoffCd != 1 } := by
  rw [OutChannel.stepped, clockDown_eq, noteoffDown_eq, OutChannel.clearFlags]

theorem conditioned_get (s : State) (ch : Nat) (h : ch < noutMax) :
    s.conditioned.outs[ch] = if ch < s.cfg.nout then s.outs[ch].stepped else s.outs[ch] := by
  rw [getElem_congr_coll (conditioned_outs s), mapLive_get]

/-- L5 and L6 leave the input lanes alone (R138, R139). -/
theorem loadTick_ins (s : State) : s.loadTick.ins = s.conditioned.ins := by
  obtain ⟨d, hdrain, hengine, -, -⟩ := loadTick_split s
  rw [hengine.ins, hdrain.ins]

/-- What L5 and L6 can change in an output lane: what the dispatch of messages can, and the clock
engine's own elements. -/
theorem loadTick_lane (s : State) (ch : Nat) (h : ch < noutMax) :
    ∃ d, LaneFrame s.conditioned.outs[ch] d ∧ s.loadTick.outs[ch] = { d with
      pulsePar := s.loadTick.outs[ch].pulsePar, shufCd := s.loadTick.outs[ch].shufCd
      tock := s.loadTick.outs[ch].tock } := by
  obtain ⟨d, hdrain, hengine, -, -⟩ := loadTick_split s
  exact ⟨d.outs[ch], hdrain.lane ch h, hengine.lane ch h⟩

/-- An output lane that does not exist is left alone (R22). -/
theorem loadTick_dead (s : State) (ch : Nat) (h : ch < noutMax) (hn : s.cfg.nout ≤ ch) :
    s.loadTick.outs[ch] = s.outs[ch] := by
  obtain ⟨d, hdrain, hengine, -, -⟩ := loadTick_split s
  rw [hengine.dead ch h (by rw [hdrain.cfg]; exact hn), hdrain.dead ch h hn, conditioned_get,
    if_neg (Nat.not_lt.mpr hn)]

/-- The Note-Offs of the expiring countdowns, as the statements write them (R134). -/
theorem releaseMsgs_eq (s : State) : s.releaseMsgs = releaseOffs s := by
  have hmsg : ∀ c : OutChannel, (if c.releases then [c.noteOffMsg] else []) =
      if c.noteoffCd = 1 ∧ c.sndValid = true then
        [({ status := 0x80#8 ||| c.sndChan.setWidth 8, d1 := c.sndNote.setWidth 8, d2 := 0 } : OutMsg)]
      else [] := fun c => by
    have hstatus : 0x80#8 ||| c.sndChan.setWidth 8 = voiceStatus 0x8 c.sndChan := status_or 0x8 c.sndChan
    simp only [OutChannel.releases, OutChannel.noteOffMsg, hstatus, Bool.and_eq_true, beq_iff_eq]
  simp only [State.releaseMsgs, releaseOffs, emitsLive, hmsg]

/-- What LOAD leaves alone in an output lane: the configuration, the previous output, the sounding
note's number and channel, and all of a lane that does not exist. -/
theorem loadTick_lane_kept (s : State) (ch : Nat) (h : ch < noutMax) :
    s.loadTick.outs[ch].prevOut = s.outs[ch].prevOut ∧ s.loadTick.outs[ch].mapMch = s.outs[ch].mapMch
    ∧ s.loadTick.outs[ch].mapFn = s.outs[ch].mapFn ∧ s.loadTick.outs[ch].moFn = s.outs[ch].moFn
    ∧ s.loadTick.outs[ch].moChan = s.outs[ch].moChan ∧ s.loadTick.outs[ch].mult = s.outs[ch].mult
    ∧ s.loadTick.outs[ch].sndNote = s.outs[ch].sndNote
    ∧ s.loadTick.outs[ch].sndChan = s.outs[ch].sndChan
    ∧ (s.cfg.nout ≤ ch → s.loadTick.outs[ch] = s.outs[ch]) := by
  obtain ⟨d, hlane, heq⟩ := loadTick_lane s ch h
  have hkeeps : s.conditioned.outs[ch] = { s.outs[ch] with
      loop := s.conditioned.outs[ch].loop, mTrig := s.conditioned.outs[ch].mTrig
      tock := s.conditioned.outs[ch].tock, clockCd := s.conditioned.outs[ch].clockCd
      out := s.conditioned.outs[ch].out, noteoffCd := s.conditioned.outs[ch].noteoffCd
      sndValid := s.conditioned.outs[ch].sndValid } := by
    rw [conditioned_get, stepped_eq]
    split <;> rfl
  rw [hkeeps] at hlane
  refine ⟨?_, ?_, ?_, ?_, ?_, ?_, ?_, ?_, loadTick_dead s ch h⟩ <;> rw [heq]
  exacts [hlane.prevOut, hlane.mapMch, hlane.mapFn, hlane.moFn, hlane.moChan, hlane.mult,
    hlane.sndNote, hlane.sndChan]

/-- Settles O25: the drain and the clock step have their frames, and the state they start from is the
one after L1 to L4. The state after LOAD is made a variable, so that its fields are not unfolded. -/
theorem loadBeginsTick : Obligations.LoadBeginsTick := by
  intro s hidle
  have hexec := exec_load_of_idle hidle
  have hcfg := loadTick_cfg s
  have hphase := loadTick_phase s
  have hlane := loadTick_lane_kept s
  have hins := loadTick_ins s
  have hsteps := loadTick_eq s
  obtain ⟨d, hdrain, hengine, -, -⟩ := loadTick_split s
  rw [conditioned_frame, conditioned_midi] at hdrain
  generalize s.loadTick = t at hexec hcfg hphase hlane hins hsteps hengine
  have hmidi {α : Type} (f : MidiState → α) := congrArg f hengine.midi
  refine ⟨t.respond 0, hexec, hengine.tickCount.trans hdrain.tickCount, hphase, rfl,
    (hmidi MidiState.rx).trans hdrain.rx, hcfg,
    hengine.resetAsserted.trans hdrain.resetAsserted, hengine.pending.trans hdrain.pending,
    hengine.inputs.trans hdrain.inputs, hengine.clkSkip.trans hdrain.clkSkip,
    hengine.rngDraws.trans hdrain.rngDraws, hengine.fault.trans hdrain.fault,
    hengine.dac.trans hdrain.dac, hengine.midiOut.trans hdrain.midiOut,
    (hmidi MidiState.clkDiv).trans hdrain.clkDiv, (hmidi MidiState.autoOut).trans hdrain.autoOut,
    (hmidi MidiState.moHold).trans hdrain.moHold, (hmidi MidiState.rxqOvf).trans hdrain.rxqOvf,
    hengine.shuffle.trans hdrain.shuffle, hengine.syncPpqn.trans hdrain.syncPpqn,
    hengine.syncSrc.trans hdrain.syncSrc, hengine.tapBuf.trans hdrain.tapBuf,
    hengine.tapN.trans hdrain.tapN, hengine.lastTap.trans hdrain.lastTap,
    hengine.lastTapValid.trans hdrain.lastTapValid, hlane, s.conditioned,
    congrArg (State.respond · 0) hsteps, ?_, fun ch h => ⟨fun hn => ?_, fun hn => ?_⟩⟩
  · rw [respond_ins, hins, ← releaseMsgs_eq]
    exact (conditioned_frame s).trans (by rw [conditioned_midi])
  · rw [conditioned_get, if_pos hn, stepped_eq]
  · rw [conditioned_get, if_neg (Nat.not_lt.mpr hn)]

/-- The ADC-lag countdown, without a case split (R134). -/
theorem lagDown_eq (c : InChannel) :
    c.lagDown = { c with lagCd := if c.lagCd = 0 then 0 else c.lagCd - 1 } := by
  unfold InChannel.lagDown
  split
  · cases c; simp_all
  · rfl

/-- What LOAD does to an input lane that exists. -/
theorem loadTick_input (s : State) (ch : Nat) (h : ch < ninMax) (hn : ch < s.cfg.nin) :
    s.loadTick.ins[ch] = ({ s.ins[ch] with
      lagCd := if s.ins[ch].lagCd = 0 then 0 else s.ins[ch].lagCd - 1 } : InChannel).conditioned
        s.cfg s.inputs.gateIn[ch] s.inputs.adc[ch] := by
  rw [getElem_congr_coll (loadTick_ins s), conditioned_ins, if_pos hn, lagDown_eq]

/-- The lag countdown is stepped, and nothing else in LOAD writes it (R134). -/
theorem loadTick_lagCd (s : State) (ch : Nat) (h : ch < ninMax) (hn : ch < s.cfg.nin) :
    s.loadTick.ins[ch].lagCd = if s.ins[ch].lagCd = 0 then 0 else s.ins[ch].lagCd - 1 := by
  rw [loadTick_input s ch h hn]
  rfl

/-- A line that agrees with the debounced level stops the count (R135). -/
theorem debounce_of_eq (cfg : Config) {raw old : Bool} (cnt : BitVec 8) (h : raw = old) :
    debounce cfg raw old cnt = (old, 0) := if_pos h

/-- A line that has differed for `DEBOUNCE_TICKS` ticks is taken. -/
theorem debounce_of_full {cfg : Config} {raw old : Bool} {cnt : BitVec 8} (h : raw ≠ old)
    (hc : cfg.debounceTicks ≤ cnt.toNat + 1) : debounce cfg raw old cnt = (raw, 0) :=
  (if_neg h).trans (if_pos hc)

/-- A line that has not yet is counted. -/
theorem debounce_of_lt {cfg : Config} {raw old : Bool} {cnt : BitVec 8} (h : raw ≠ old)
    (hc : cnt.toNat + 1 < cfg.debounceTicks) :
    debounce cfg raw old cnt = (old, fitNat 8 (cnt.toNat + 1)) :=
  (if_neg h).trans (if_neg (Nat.not_le.mpr hc))

theorem risingEdge_iff (old new : Bool) : risingEdge old new = true ↔ old = false ∧ new = true := by
  simp [risingEdge]

/-- Settles O26: an input lane after LOAD is `InChannel.conditioned`, case by case of the debouncer. -/
theorem loadConditionsInputs : Obligations.LoadConditionsInputs := by
  intro s hidle
  have hexec := exec_load_of_idle hidle
  have hlane := loadTick_input s
  generalize s.loadTick = t at hexec hlane
  refine ⟨t.respond 0, hexec, fun ch h hn => ?_⟩
  rw [getElem_congr_coll (respond_ins t 0), hlane ch h hn]
  intro c d raw v
  refine ⟨fun e => ?_, fun e hc => ?_, fun e hc => ?_, risingEdge_iff c.gateHigh d.gateHigh,
    fun e => if_pos e, fun e => if_neg (Bool.eq_false_iff.mp e), rfl, decide_eq_true_iff, fun e => if_pos e,
    fun e => if_neg (Bool.eq_false_iff.mp e)⟩
  · have hdeb : debounce s.cfg raw c.gateHigh c.dbCnt = _ := debounce_of_eq s.cfg c.dbCnt e
    exact ⟨congrArg Prod.fst hdeb, congrArg Prod.snd hdeb⟩
  · have hdeb : debounce s.cfg raw c.gateHigh c.dbCnt = _ := debounce_of_full e hc
    exact ⟨congrArg Prod.fst hdeb, congrArg Prod.snd hdeb⟩
  · have hdeb : debounce s.cfg raw c.gateHigh c.dbCnt = _ := debounce_of_lt e hc
    have hcnt : d.dbCnt = fitNat 8 (c.dbCnt.toNat + 1) := congrArg Prod.snd hdeb
    exact ⟨congrArg Prod.fst hdeb, hcnt.symm ▸ holdsNat_fitNat 8 (c.dbCnt.toNat + 1)⟩

/-- An output lane `d` after LOAD, from the existing lane `c` before it: its countdowns and what they
force, and its loopback flag (R132 to R134). -/
structure LaneLoaded (c d : OutChannel) : Prop where
  clockCd : d.clockCd = if c.clockCd = 0 then 0 else c.clockCd - 1
  out : d.out = if c.clockCd = 1 then 0 else c.out
  noteoffCd : d.noteoffCd = if c.noteoffCd = 0 then 0 else c.noteoffCd - 1
  sndValid : d.sndValid = (c.sndValid && c.noteoffCd != 1)
  loop : d.loop = false

/-- Whatever the drain and the clock step do, a LOAD steps each countdown once. -/
theorem loadTick_loaded (s : State) (ch : Nat) (h : ch < noutMax) (hn : ch < s.cfg.nout) :
    LaneLoaded s.outs[ch] s.loadTick.outs[ch] := by
  obtain ⟨d, hlane, heq⟩ := loadTick_lane s ch h
  rw [conditioned_get, if_pos hn, stepped_eq] at hlane
  rw [heq]
  exact ⟨hlane.clockCd, hlane.out, hlane.noteoffCd, hlane.sndValid, hlane.loop⟩

/-- The outbound list after LOAD: the Note-Offs of the expiring countdowns, then the engine's Clock
(R134, 44_clock_engine.md R279). -/
theorem loadTick_tx (s : State) :
    ∃ clk : List OutMsg, (clk = [] ∨ clk = [{ status := 0xF8, d1 := 0, d2 := 0 }])
      ∧ s.loadTick.midi.tx = s.midi.tx ++ releaseOffs s ++ clk := by
  obtain ⟨d, hdrain, -, hstep, -⟩ := loadTick_split s
  obtain ⟨clk, hclk, htx⟩ := clockStep_tx d
  refine ⟨clk, hclk, ?_⟩
  rw [hstep, htx, hdrain.tx, conditioned_tx, releaseMsgs_eq]

/-- Settles O27, by the lane after LOAD and the outbound list after it. -/
theorem loadStepsCountdowns : Obligations.LoadStepsCountdowns := by
  intro s hidle
  have hexec := exec_load_of_idle hidle
  have hlane := loadTick_loaded s
  have hlag := loadTick_lagCd s
  have htx := loadTick_tx s
  generalize s.loadTick = t at hexec hlane hlag htx
  refine ⟨t.respond 0, hexec, fun ch h hn => ?_, hlag,
    fun ch h hn => ⟨(hlane ch h hn).noteoffCd, (hlane ch h hn).sndValid⟩, htx⟩
  obtain ⟨hcd, hout, -, -, -⟩ := hlane ch h hn
  rw [getElem_congr_coll (respond_outs t 0), hcd, hout]
  refine ⟨fun e => ?_, fun e => ?_, fun e => ?_⟩
  · simp [e]
  · simp [e]
  · have hzero : s.outs[ch].clockCd ≠ 0 := fun k => by simp [k] at e
    have hone : s.outs[ch].clockCd ≠ 1 := fun k => by simp [k] at e
    exact ⟨if_neg hzero, if_neg hone⟩

/-- A stopped engine does nothing (44_clock_engine.md R270). -/
theorem clockStep_of_stopped {s : State} (h : s.clk.state = .stopped) : s.clockStep = s := by
  rcases clockStep_cases s with ⟨-, e⟩ | ⟨k, -⟩ | ⟨k, -⟩ | ⟨k, -⟩ | ⟨k, -⟩
  · exact e
  all_goals rw [h] at k; cases k

/-- Where no message is drained, L1 to L4's cleared flags stay, but for the engine's ticks. -/
theorem loadTick_flags_of_empty {s : State} (hrx : s.midi.rx = []) :
    s.loadTick.midi.clkTick = false ∧ ∀ (ch : Nat) (h : ch < noutMax), ch < s.cfg.nout →
      s.loadTick.outs[ch].mTrig = false
      ∧ (s.clk.state = .stopped → s.loadTick.outs[ch].tock = false) := by
  have hstepped (ch : Nat) (h : ch < noutMax) (hn : ch < s.cfg.nout) :
      s.conditioned.outs[ch] = s.outs[ch].stepped := by rw [conditioned_get, if_pos hn]
  obtain ⟨d, -, hengine, hstep, hempty⟩ := loadTick_split s
  obtain rfl := hempty hrx
  refine ⟨by rw [hengine.midi, conditioned_midi], fun ch h hn => ⟨?_, fun hstop => ?_⟩⟩
  · rw [hengine.lane ch h, hstepped ch h hn, stepped_eq]
  · have hidle : s.loadTick = s.conditioned :=
      hstep.trans (clockStep_of_stopped (by rw [conditioned_clk, hstop]))
    rw [getElem_congr_coll (congrArg State.outs hidle), hstepped ch h hn, stepped_eq]

/-- Settles O28: nothing sets `loop` in a LOAD; where nothing is drained, only the clock step can set a
flag, and it sets `tock` alone, unless the engine is stopped. -/
theorem loadClearsOneTickFlags : Obligations.LoadClearsOneTickFlags := by
  intro s hidle
  have hexec := exec_load_of_idle hidle
  have hlane := loadTick_loaded s
  have hflags := loadTick_flags_of_empty (s := s)
  generalize s.loadTick = t at hexec hlane hflags
  exact ⟨t.respond 0, hexec, fun ch h hn => (hlane ch h hn).loop,
    fun hrx => ⟨(hflags hrx).1, fun ch h hn => ((hflags hrx).2 ch h hn).1⟩,
    fun hrx hstop ch h hn => ((hflags hrx).2 ch h hn).2 hstop⟩

/-! ### SEND -/

theorem exec_send_of_process {s : State} (h : s.phase = .process) :
    exec .send s = .next (s.sendTick.respond 0) := by
  simp [exec, execSend, inProcess, h]

/-- Each physical output is driven with the frame's value (R143). -/
theorem sendTick_dac_get (s : State) (ch : Nat) (h : ch < ndacMax) (hn : ch < s.cfg.ndac) :
    s.sendTick.dac[ch] =
      { code := (s.outs[ch]'(Nat.lt_trans h (by decide))).out, octave := s.cfg.dacOctave } := by
  rw [getElem_congr_coll (sendTick_dac s), driveDacs_get, if_pos hn]

/-- What SEND leaves alone in an output lane: all but the sounding note, its countdown and `prev_out`. -/
theorem sendTick_lane_frame (s : State) (ch : Nat) (h : ch < noutMax) :
    s.sendTick.outs[ch] = { s.outs[ch] with
      prevOut := if ch < s.cfg.nout then s.outs[ch].out else s.outs[ch].prevOut
      sndValid := s.sendTick.outs[ch].sndValid, sndNote := s.sendTick.outs[ch].sndNote
      sndChan := s.sendTick.outs[ch].sndChan, noteoffCd := s.sendTick.outs[ch].noteoffCd } := by
  rw [sendTick_lane]
  split
  · rw [afterAction_lane]
  · rfl

/-- The sounding note stays where the path is off or the output is no note output (R144). -/
theorem sendTick_lane_quiet (s : State) (ch : Nat) (h : ch < noutMax)
    (hq : s.midi.autoOut = false ∨ s.outs[ch].moFn ≠ .note) :
    s.sendTick.outs[ch] = { s.outs[ch] with
      prevOut := if ch < s.cfg.nout then s.outs[ch].out else s.outs[ch].prevOut } := by
  rw [sendTick_lane]
  rcases hq with hq | hq
  · rw [hq]; rfl
  · rw [actionAt_quiet s ch _ hq]
    split <;> rfl

/-- The messages SEND drives: those of the tick, then the path's (R141, R144). -/
theorem sendTick_msgs (s : State) :
    ∃ path, s.sendTick.midiOut = s.midi.tx ++ path ∧ (s.midi.autoOut = false → path = []) := by
  rw [sendTick_midiOut]
  rcases outboundPath_cases s.driveDacs with ⟨ha, hpath⟩ | ⟨-, hpath⟩
  · rw [driveDacs_midi] at ha
    rw [hpath, notePath_tx]
    exact ⟨_, rfl, fun hoff => by rw [ha] at hoff; cases hoff⟩
  · rw [hpath]
    exact ⟨[], (List.append_nil _).symm, fun _ => rfl⟩

/-- Settles O41, by what SEND leaves: the ports, the lanes, and nothing else. -/
theorem sendDrivesPortsAndEndsTick : Obligations.SendDrivesPortsAndEndsTick := by
  intro s hprocess
  have hexec := exec_send_of_process hprocess
  have hframe := sendTick_frame s
  have hdac := sendTick_dac_get s
  have hmsgs := sendTick_msgs s
  have hlane := sendTick_lane_frame s
  have hquiet := sendTick_lane_quiet s
  generalize s.sendTick = t at hexec hframe hdac hmsgs hlane hquiet
  refine ⟨t.respond 0, hexec, congrArg (State.respond · 0) hframe, hdac, hmsgs,
    fun ch h => ⟨hlane ch h, fun hq => ?_⟩⟩
  rw [getElem_congr_coll (respond_outs t 0), hquiet ch h hq]
  exact ⟨rfl, rfl, rfl, rfl⟩

/-! ### Countdowns -/

/-- `lag_cd` is loaded by `STARTLAG` alone, LOAD apart (R145, 41_frame_io.md R176). -/
theorem Effect.lagCd_cases {s t : State} {i : Instr} (he : Effect s i t) (hload : i ≠ .load)
    (ch : Nat) (h : ch < ninMax) : t.ins[ch].lagCd = s.ins[ch].lagCd
      ∨ (i = .startlag (BitVec.ofNat 4 ch) ∧ holdsNat t.ins[ch].lagCd s.cfg.adcLagTicks) := by
  have hsame {u : State} (e : u.ins = s.ins) : u.ins[ch].lagCd = s.ins[ch].lagCd := by rw [e]
  cases he with
  | load => exact absurd rfl hload
  | send => exact .inl (hsame (by rw [respond_ins, sendTick_frame]))
  | midi | query | out | tap => exact .inl rfl
  | skip => exact .inl (hsame (by rw [respond_ins, afterDraw_eq]))
  | pulse => exact .inl (hsame (by rw [respond_ins, setOut_ins, afterDraw_eq]))
  | playstop => exact .inl (hsame (by rw [respond_ins, togglePlay_frame]))
  | cfgw => exact .inl (hsame (writeReg_ins _ _ s))
  | startlag idx c hp hc =>
    obtain ⟨hi, -, rfl⟩ := inLane_some hc
    by_cases e : idx.toNat = ch
    · subst e
      refine .inr ⟨by rw [BitVec.ofNat_toNat, BitVec.setWidth_eq], ?_⟩
      simpa using holdsNat_fitNat 8 s.cfg.adcLagTicks
    · refine .inl ?_
      simp [e]

/-- SEND arms a release countdown with `MO_HOLD` or leaves it (43_midi_query_out.md R245). -/
theorem afterAction_noteoffCd (hold : BitVec 16) (c : OutChannel) (a : PathAction) :
    (c.afterAction hold a).noteoffCd = c.noteoffCd ∨ (c.afterAction hold a).noteoffCd = hold := by
  cases a with
  | quiet => exact .inl rfl
  | retrigger nn => exact .inl rfl
  | start nn => exact .inr rfl

theorem sendTick_noteoffCd (s : State) (ch : Nat) (h : ch < noutMax) :
    s.sendTick.outs[ch].noteoffCd = s.outs[ch].noteoffCd
      ∨ s.sendTick.outs[ch].noteoffCd = s.midi.moHold := by
  rw [sendTick_lane]
  split
  · exact afterAction_noteoffCd _ _ _
  · exact .inl rfl

/-- What a command other than LOAD can do to the countdowns of output lane `ch` (R145): `CLKOUT` arms
`clock_cd`, SEND arms `noteoff_cd`, `PLAYSTOP` drops `shuf_cd`. -/
def LaneCountdowns (s : State) (i : Instr) (ch : Nat) (c d : OutChannel) : Prop :=
  (d.clockCd = c.clockCd ∨ i = .clkout (BitVec.ofNat 4 ch) d.clockCd)
  ∧ (d.noteoffCd = c.noteoffCd ∨ (i = .send ∧ d.noteoffCd = s.midi.moHold))
  ∧ (d.shufCd = c.shufCd ∨ (i = .playstop ∧ d.shufCd = 0))

theorem LaneCountdowns.of_eq {s : State} {i : Instr} {ch : Nat} {c d : OutChannel}
    (hclock : d.clockCd = c.clockCd) (hoff : d.noteoffCd = c.noteoffCd)
    (hshuf : d.shufCd = c.shufCd) : LaneCountdowns s i ch c d :=
  ⟨.inl hclock, .inl hoff, .inl hshuf⟩

/-- Writing the lane an index selects. -/
theorem setOut_laneCountdowns {s : State} {i : Instr} {idx : BitVec 4} {c d : OutChannel}
    (hc : s.outLane idx = some c) (hd : LaneCountdowns s i idx.toNat c d) (ch : Nat)
    (h : ch < noutMax) : LaneCountdowns s i ch s.outs[ch] (s.setOut idx.toNat d).outs[ch] := by
  obtain ⟨hi, -, rfl⟩ := outLane_some hc
  rw [setOut_get]
  split
  · rename_i e
    subst e
    exact hd
  · exact .of_eq rfl rfl rfl

/-- Every effect but LOAD's, on the countdowns of an output lane. -/
theorem Effect.laneCountdowns {s t : State} {i : Instr} (he : Effect s i t) (hload : i ≠ .load)
    (ch : Nat) (h : ch < noutMax) : LaneCountdowns s i ch s.outs[ch] t.outs[ch] := by
  cases he with
  | load => exact absurd rfl hload
  | send =>
    rw [getElem_congr_coll (respond_outs _ _)]
    have hoff := (sendTick_noteoffCd s ch h).imp id fun e => And.intro (rfl : Instr.send = .send) e
    have hframe := sendTick_lane_frame s ch h
    generalize s.sendTick.outs[ch] = d at hoff hframe ⊢
    exact ⟨.inl (by rw [hframe]), hoff, .inl (by rw [hframe])⟩
  | midi | query | startlag | tap => exact .of_eq rfl rfl rfl
  | out idx imm c hp hc =>
    exact setOut_laneCountdowns hc (d := c.write s.cfg imm) (.of_eq rfl rfl rfl) ch h
  | skip =>
    rw [getElem_congr_coll (respond_outs _ _), afterDraw_eq]
    exact .of_eq rfl rfl rfl
  | pulse idx imm c hp hc =>
    have harm : LaneCountdowns s (.clkout idx imm) idx.toNat c (c.pulse s.cfg imm) :=
      ⟨.inr (by rw [BitVec.ofNat_toNat, BitVec.setWidth_eq]; rfl), .inl rfl, .inl rfl⟩
    rw [getElem_congr_coll (respond_outs _ _), afterDraw_eq]
    exact setOut_laneCountdowns hc harm ch h
  | playstop =>
    rw [getElem_congr_coll (respond_outs _ _)]
    obtain ⟨hframe, hshuf⟩ := togglePlay_get s ch h
    generalize s.togglePlay.outs[ch] = d at hframe hshuf ⊢
    exact ⟨.inl (by rw [hframe]), .inl (by rw [hframe]), hshuf.imp id fun e => ⟨rfl, e⟩⟩
  | cfgw addr val r =>
    rw [getElem_congr_coll (respond_outs _ _), writeReg_lane]
    exact .of_eq rfl rfl rfl

/-- Settles O59: a fault changes no lane, and the effects are those of `Effect`. -/
theorem onlyLoadDecrementsCountdowns : Obligations.OnlyLoadDecrementsCountdowns := by
  intro i s t hexec hload
  rcases exec_cases hexec with ⟨code, -, rfl⟩ | heffect
  · exact ⟨fun _ _ => .inl rfl, fun _ _ => ⟨.inl rfl, .inl rfl, .inl rfl⟩⟩
  · exact ⟨heffect.lagCd_cases hload, heffect.laneCountdowns hload⟩

/-! ### The length of a clock pulse -/

/-- An empty tick is a SEND of lanes that a LOAD has stepped. -/
theorem emptyTick_cases {s : State} (h : s.phase = .idle) (inputs : Inputs) :
    ∃ t : State, emptyTick s inputs = t.sendTick.respond 0 ∧ t.cfg = s.cfg
      ∧ ∀ (ch : Nat) (h : ch < noutMax), ch < s.cfg.nout → LaneLoaded s.outs[ch] t.outs[ch] := by
  let r : State := { s with inputs := inputs }
  have hload : exec .load r = .next (r.loadTick.respond 0) := exec_load_of_idle h
  have hphase : r.loadTick.phase = .process := loadTick_phase r
  have hcfg : r.loadTick.cfg = s.cfg := loadTick_cfg r
  have hlane := loadTick_loaded r
  generalize r.loadTick = t at hload hphase hcfg hlane
  have hsend := exec_send_of_process (s := t.respond 0) hphase
  exact ⟨t.respond 0, by simp only [emptyTick, r, hload, hsend], hcfg, hlane⟩

/-- An output that has `left` ticks of a clock pulse to go: it is high until none is left
(41_frame_io.md R171). -/
structure LanePulse (cfg : Config) (left : Nat) (c : OutChannel) : Prop where
  clockCd : c.clockCd.toNat = left
  out : c.out = if 0 < left then gateHigh cfg else 0

/-- LOAD takes one tick off a pulse, and the last one lowers the output (R133). -/
theorem LaneLoaded.pulse {cfg : Config} {left : Nat} {c d : OutChannel} (h : LaneLoaded c d)
    (hpulse : LanePulse cfg left c) : LanePulse cfg (left - 1) d := by
  obtain ⟨rfl, hout⟩ := hpulse
  refine ⟨?_, ?_⟩
  · rw [h.clockCd]
    split
    · rename_i hzero
      rw [hzero]
      rfl
    · bv_omega
  · rw [h.out, hout]
    split
    · rename_i hone
      rw [hone]
      rfl
    · have hiff : 0 < c.clockCd.toNat ↔ 0 < c.clockCd.toNat - 1 := by bv_omega
      simp only [hiff]

/-- A block between ticks, whose output `ch` and its DAC have `left` ticks of a pulse to go. -/
structure PulseLeft (cfg : Config) (ch : Nat) (h : ch < ndacMax) (left : Nat) (s : State) : Prop where
  params : s.cfg = cfg
  phase : s.phase = .idle
  lane : LanePulse cfg left (s.outs[ch]'(Nat.lt_trans h (by decide)))
  dac : s.dac[ch].code = (s.outs[ch]'(Nat.lt_trans h (by decide))).out

/-- SEND leaves a pulse as it is, and shows it on the DAC (R143). -/
theorem sendTick_pulseLeft {s : State} {ch left : Nat} {h : ch < ndacMax} (hdac : ch < s.cfg.ndac)
    (hpulse : LanePulse s.cfg left (s.outs[ch]'(Nat.lt_trans h (by decide)))) :
    PulseLeft s.cfg ch h left (s.sendTick.respond 0) := by
  have hcfg := sendTick_cfg s
  have hphase : s.sendTick.phase = .idle := rfl
  have hlane := sendTick_lane_frame s ch (Nat.lt_trans h (by decide))
  have hport := sendTick_dac_get s ch h hdac
  generalize s.sendTick = t at hcfg hphase hlane hport
  have hcd := congrArg OutChannel.clockCd hlane
  have hout := congrArg OutChannel.out hlane
  exact ⟨hcfg, hphase, ⟨(congrArg BitVec.toNat hcd).trans hpulse.clockCd, hout.trans hpulse.out⟩,
    (congrArg DacWord.code hport).trans hout.symm⟩

theorem PulseLeft.emptyTick {cfg : Config} {ch left : Nat} {h : ch < ndacMax} {s : State}
    (hpulse : PulseLeft cfg ch h left s) (hdac : ch < cfg.ndac) (hnout : ch < cfg.nout)
    (inputs : Inputs) : PulseLeft cfg ch h (left - 1) (emptyTick s inputs) := by
  obtain ⟨rfl, hphase, hlane, -⟩ := hpulse
  obtain ⟨t, htick, hcfg, hloaded⟩ := emptyTick_cases hphase inputs
  rw [htick]
  rw [← hcfg] at hlane hdac ⊢
  exact sendTick_pulseLeft hdac ((hloaded ch _ hnout).pulse hlane)

/-- Ticks in which the host writes nothing run a pulse down one by one. -/
theorem PulseLeft.emptyTicks {cfg : Config} {ch : Nat} {h : ch < ndacMax} (hdac : ch < cfg.ndac)
    (hnout : ch < cfg.nout) (later : List Inputs) {left : Nat} {s : State}
    (hpulse : PulseLeft cfg ch h left s) :
    PulseLeft cfg ch h (left - later.length) (emptyTicks s later) := by
  induction later generalizing left s with
  | nil => exact hpulse
  | cons inputs later ih =>
    have hrest := ih (hpulse.emptyTick hdac hnout inputs)
    rwa [Nat.sub_sub, Nat.add_comm 1] at hrest

/-- No draw skips a pulse where `clk_skip` is 0 or the draw is not below it (41_frame_io.md R171). -/
theorem skipsPulse_eq_false {s : State}
    (h : s.clkSkip = 0 ∨ s.clkSkip.toNat ≤ s.inputs.rng.toNat % 100) : s.skipsPulse = false := by
  rcases h with h | h
  · simp [State.skipsPulse, h]
  · simp [State.skipsPulse, Nat.not_lt.mpr h]

/-- A `CLKOUT` that is not skipped begins its pulse (R171). -/
theorem exec_clkout_of_not_skipped {s : State} (hphase : s.phase = .process)
    (hskip : s.skipsPulse = false) {ch : Nat} (h : ch < noutMax) (hn : ch < s.cfg.nout)
    (len : BitVec 16) : ∃ a : State, exec (.clkout (BitVec.ofNat 4 ch) len) s = .next a
      ∧ a.cfg = s.cfg ∧ a.phase = .process ∧ a.outs[ch] = s.outs[ch].pulse s.cfg len := by
  have hidx : (BitVec.ofNat 4 ch).toNat = ch :=
    (BitVec.toNat_ofNat ch 4).trans (Nat.mod_eq_of_lt (Nat.lt_trans h (by decide)))
  have hsel := outLane_eq s (BitVec.ofNat 4 ch) (by omega) (by omega)
  simp only [hidx] at hsel
  refine ⟨(s.afterDraw.setOut ch (s.outs[ch].pulse s.cfg len)).respond 0, ?_, afterDraw_cfg s,
    (afterDraw_phase s).trans hphase, ?_⟩
  · simp only [exec, execClkout, indexed, hphase, hsel, hskip, hidx, Bool.false_eq_true, if_false]
  · rw [getElem_congr_coll (respond_outs _ 0), setOut_get, if_pos rfl]

/-- Settles O60: `CLKOUT` and SEND begin a pulse with `n` ticks left, and each later tick takes one. -/
theorem clockPulseLastsItsLength : Obligations.ClockPulseLastsItsLength := by
  intro s ch h n later hphase hlegal hdac hdraw hn
  have hc := Config.legal_elim hlegal
  have hnout : ch < s.cfg.nout := Nat.lt_of_lt_of_le h hc.nout.1
  obtain ⟨a, hexec, hcfg, hproc, hlane⟩ := exec_clkout_of_not_skipped hphase
    (skipsPulse_eq_false hdraw) (Nat.lt_trans h (by decide)) hnout n
  have hpos : 0 < n.toNat := by bv_omega
  have hpulse : LanePulse a.cfg n.toNat (a.outs[ch]'(Nat.lt_trans h (by decide))) := by
    rw [hlane, hcfg]
    exact ⟨rfl, (if_pos hpos).symm⟩
  have hbegun := sendTick_pulseLeft (h := h) (hcfg ▸ hdac) hpulse
  rw [hcfg] at hbegun
  have hend := hbegun.emptyTicks hdac hnout later
  refine ⟨a, _, hexec, exec_send_of_process hproc, ?_⟩
  rw [hend.dac, hend.lane.out, gateHigh, toCode_natCast hc.codes.1]
  simp only [Nat.sub_pos_iff_lt]

end Sys2Proof.Machine
end

section
/-! PROOFS. The statements of 41_frame_io.md, with the lane queries that 43_midi_query_out.md and
44_clock_engine.md word in the same way. Every command here runs through `indexed`: its three outcomes
are stated once, and each command adds its word and what it does to the lane its index selects. -/

namespace Sys2Proof.Machine

/-! ### Words of formats C and V -/

theorem wordC_eq_indexWord (op : Nat) (idx : BitVec 4) :
    wordC (BitVec.ofNat 8 op) idx = indexWord op idx := by
  apply BitVec.eq_of_toNat_eq
  rw [wordC_toNat, indexWord, BitVec.toNat_ofNat, BitVec.toNat_ofNat]
  omega

/-- The immediate fills the low half, which format C leaves at zero (30_encoding.md R101). -/
theorem wordV_eq_wordC_or (op : BitVec 8) (idx : BitVec 4) (imm : BitVec 16) :
    wordV op idx imm = wordC op idx ||| imm.setWidth 32 := by
  have hhigh : (wordC op idx).toNat = 2 ^ 16 * (op.toNat * 2 ^ 8 + idx.toNat * 2 ^ 4) := by
    rw [wordC_toNat]
    omega
  apply BitVec.eq_of_toNat_eq
  rw [BitVec.toNat_or, BitVec.toNat_setWidth_of_le (by decide), hhigh,
    ← Nat.two_pow_add_eq_or_of_lt imm.isLt, wordV_toNat]
  omega

theorem wordV_eq_indexWord_or (op : Nat) (idx : BitVec 4) (imm : BitVec 16) :
    wordV (BitVec.ofNat 8 op) idx imm = indexWord op idx ||| imm.setWidth 32 := by
  rw [wordV_eq_wordC_or, wordC_eq_indexWord]

/-! ### The outcomes of an indexed command -/

section
variable {α : Type} {i : Instr} {s : State} {sel : Option α} {run : α → State}

theorem indexed_of_idle (h : s.phase = .idle) :
    indexed i s sel run = faultOutcome i s .badOrder := by
  simp only [indexed, h]
  rfl

theorem indexed_of_none (h : s.phase = .process) (hsel : sel = none) :
    indexed i s sel run = faultOutcome i s .badChannel := by
  simp only [indexed, h, hsel]
  rfl

theorem indexed_of_some (h : s.phase = .process) {x : α} (hsel : sel = some x) :
    indexed i s sel run = .next (run x) := by
  simp only [indexed, h, hsel]

end

/-! ### Queries of a lane -/

/-- A query of an input lane: its format, and `queryIn` with its answer. -/
theorem inputQuery_of_exec {op : Nat} {mk : BitVec 4 → Instr} {answer : InChannel → Word}
    (hword : ∀ idx, encode (mk idx) = wordC (BitVec.ofNat 8 op) idx)
    (hexec : ∀ idx s, exec (mk idx) s = queryIn (mk idx) idx s answer) :
    InputQuery op mk answer := by
  intro idx s
  rw [hexec, queryIn]
  exact ⟨(hword idx).trans (wordC_eq_indexWord op idx), indexed_of_idle,
    fun hphase hn => indexed_of_none hphase (inLane_none s idx hn),
    fun h hphase hn => indexed_of_some hphase (inLane_eq s idx h hn)⟩

/-- A query of an output lane: its format, and `queryOut` with its answer. -/
theorem outputQuery_of_exec {op : Nat} {mk : BitVec 4 → Instr} {answer : OutChannel → Word}
    (hword : ∀ idx, encode (mk idx) = wordC (BitVec.ofNat 8 op) idx)
    (hexec : ∀ idx s, exec (mk idx) s = queryOut (mk idx) idx s answer) :
    OutputQuery op mk answer := by
  intro idx s
  rw [hexec, queryOut]
  exact ⟨(hword idx).trans (wordC_eq_indexWord op idx), indexed_of_idle,
    fun hphase hn => indexed_of_none hphase (outLane_none s idx hn),
    fun h hphase hn => indexed_of_some hphase (outLane_eq s idx h hn)⟩

theorem flagWord_beq {n : Nat} (x y : BitVec n) :
    flagWord (x == y) = if x = y then 1 else 0 := by
  simp only [flagWord, beq_iff_eq]

/-- Settles O17: the seven queries are `queryIn` with the answers of their rules. -/
theorem inputQueriesAnswer : Obligations.InputQueriesAnswer :=
  ⟨inputQuery_of_exec (fun _ => rfl) (fun _ _ => rfl),
    inputQuery_of_exec (fun _ => rfl) (fun _ _ => rfl),
    inputQuery_of_exec (fun _ => rfl) (fun _ _ => rfl),
    inputQuery_of_exec (fun _ => rfl) (fun _ _ => rfl),
    inputQuery_of_exec (fun _ => rfl) (fun _ _ => rfl),
    inputQuery_of_exec (fun _ => rfl) (fun _ _ => rfl),
    inputQuery_of_exec (fun _ => rfl) fun idx s =>
      congrArg (queryIn (.islag idx) idx s) (funext fun c => flagWord_beq c.lagCd 0)⟩

/-- Settles O18: the five queries are `queryOut` with the answers of their rules. -/
theorem outputQueriesAnswer : Obligations.OutputQueriesAnswer :=
  ⟨outputQuery_of_exec (fun _ => rfl) (fun _ _ => rfl),
    outputQuery_of_exec (fun _ => rfl) (fun _ _ => rfl),
    outputQuery_of_exec (fun _ => rfl) (fun _ _ => rfl),
    outputQuery_of_exec (fun _ => rfl) (fun _ _ => rfl),
    outputQuery_of_exec (fun _ => rfl) (fun _ _ => rfl)⟩

/-! ### Writes to a lane -/

theorem setIfInBounds_eq_set {α : Type} {n : Nat} (v : Vector α n) {i : Nat} (h : i < n) (x : α) :
    v.setIfInBounds i x = v.set i x := by
  ext k hk
  rw [Vector.getElem_setIfInBounds, Vector.getElem_set]

theorem setIn_eq_set (s : State) {idx : BitVec 4} (h : idx.toNat < ninMax) (c : InChannel) :
    s.setIn idx c = { s with ins := s.ins.set idx.toNat c } := by
  rw [State.setIn, setIfInBounds_eq_set]

theorem setOut_eq_set (s : State) {i : Nat} (h : i < noutMax) (c : OutChannel) :
    s.setOut i c = { s with outs := s.outs.set i c } := by
  rw [State.setOut, setIfInBounds_eq_set]

theorem exec_out (idx : BitVec 4) (imm : BitVec 16) (s : State) :
    exec (.out idx imm) s = indexed (.out idx imm) s (s.outLane idx) fun c =>
      (s.setOut idx.toNat (c.write s.cfg imm)).respond 0 := rfl

theorem exec_clkout (idx : BitVec 4) (imm : BitVec 16) (s : State) :
    exec (.clkout idx imm) s = indexed (.clkout idx imm) s (s.outLane idx) fun c =>
      if s.skipsPulse then s.afterDraw.respond 1
      else (s.afterDraw.setOut idx.toNat (c.pulse s.cfg imm)).respond 0 := rfl

theorem exec_startlag (idx : BitVec 4) (s : State) :
    exec (.startlag idx) s = indexed (.startlag idx) s (s.inLane idx) fun c =>
      (s.setIn idx { c with lagCd := fitNat 8 s.cfg.adcLagTicks }).respond 0 := rfl

/-- Settles O22: the lane `OUT` writes is `OutChannel.write`, whose flag is that of a rise. -/
theorem outWritesAndDetectsRise : Obligations.OutWritesAndDetectsRise := by
  intro idx imm s
  rw [exec_out]
  refine ⟨wordV_eq_indexWord_or 0x30 idx imm, indexed_of_idle,
    fun hphase hn => indexed_of_none hphase (outLane_none s idx hn), fun h hphase hn => ?_⟩
  rw [indexed_of_some hphase (outLane_eq s idx h hn), setOut_eq_set s h]
  rfl

/-- Settles O24: the lag is the constant, whatever the countdown held. -/
theorem startlagLoadsCountdown : Obligations.StartlagLoadsCountdown := by
  intro idx s
  rw [exec_startlag]
  refine ⟨wordC_eq_indexWord 0x32 idx, indexed_of_idle,
    fun hphase hn => indexed_of_none hphase (inLane_none s idx hn), fun h hphase hn => ?_⟩
  refine ⟨fitNat 8 s.cfg.adcLagTicks, holdsNat_fitNat 8 s.cfg.adcLagTicks, ?_⟩
  rw [indexed_of_some hphase (inLane_eq s idx h hn), setIn_eq_set s h]
  rfl

/-! ### The draw of a clock output -/

theorem skipsPulse_eq_true {s : State} (hskip : s.clkSkip ≠ 0)
    (hdraw : s.inputs.rng.toNat % 100 < s.clkSkip.toNat) : s.skipsPulse = true := by
  rw [State.skipsPulse, bne_iff_ne.mpr hskip, decide_eq_true hdraw]
  rfl

theorem afterDraw_of_zero {s : State} (h : s.clkSkip = 0) : s.afterDraw = s := if_pos h

theorem afterDraw_of_ne_zero {s : State} (h : s.clkSkip ≠ 0) : s.afterDraw = s.drawn := if_neg h

section
variable {idx : BitVec 4} {imm : BitVec 16} {s : State} (hphase : s.phase = .process)
  (h : idx.toNat < noutMax) (hn : idx.toNat < s.cfg.nout)
include hphase h hn

/-- A skipped `CLKOUT` only draws (41_frame_io.md R171). -/
theorem exec_clkout_skipped (hskip : s.skipsPulse = true) :
    exec (.clkout idx imm) s = .next (s.afterDraw.respond 1) := by
  rw [exec_clkout, indexed_of_some hphase (outLane_eq s idx h hn), if_pos hskip]

/-- A `CLKOUT` that is not skipped begins a pulse on its lane, after the draw if it made one (R171). -/
theorem exec_clkout_pulse (hskip : s.skipsPulse = false) :
    exec (.clkout idx imm) s =
      .next { s.afterDraw with
        resp := 0, outs := s.outs.set idx.toNat (s.outs[idx.toNat].pulse s.cfg imm) } := by
  have houts : s.afterDraw.outs = s.outs := by rw [afterDraw_eq]
  rw [exec_clkout, indexed_of_some hphase (outLane_eq s idx h hn),
    if_neg (Bool.eq_false_iff.mp hskip), setOut_eq_set _ h, houts]
  rfl

end

/-- Settles O23: no draw, a draw that skips, and a draw that does not. -/
theorem clkoutPulsesOrSkips : Obligations.ClkoutPulsesOrSkips := by
  intro idx imm s
  refine ⟨wordV_eq_indexWord_or 0x31 idx imm, indexed_of_idle,
    fun hphase hn => indexed_of_none hphase (outLane_none s idx hn), fun h hphase hn => ?_⟩
  refine ⟨toCode s.cfg.gateHighCode, holdsCode_toCode s.cfg.gateHighCode, ?_, ?_, ?_⟩
  · intro hzero
    rw [exec_clkout_pulse hphase h hn (skipsPulse_eq_false (.inl hzero)), afterDraw_of_zero hzero]
    rfl
  · intro hne hdraw
    rw [exec_clkout_skipped hphase h hn (skipsPulse_eq_true hne hdraw), afterDraw_of_ne_zero hne]
    rfl
  · intro hne hdraw
    rw [exec_clkout_pulse hphase h hn (skipsPulse_eq_false (.inr hdraw)), afterDraw_of_ne_zero hne]
    rfl

end Sys2Proof.Machine
end

section
/-! PROOFS. The statements of 42_midi_in.md. A dispatched message is logged and then its type's rule
runs (`processMidi_of_kind`); a rule is a change of the MIDI registers and a pass over the output
lanes. What a rule does to the registers holds by its definition; what it does to a lane is said
once per rule, in the section of its message. -/

namespace Sys2Proof.Machine

/-! ### Words of format M -/

theorem wordM_eq_midiWord {status : BitVec 8} {n : Nat} (h : status.toNat = n) (d1 d2 : BitVec 7) :
    wordM status d1 d2 = midiWord n d1 d2 := by
  subst h
  apply BitVec.eq_of_toNat_eq
  rw [wordM_toNat, midiWord, BitVec.toNat_ofNat]
  omega

/-- The word of a voice message: its type and its channel are the nibbles of the status byte
(30_encoding.md R102). -/
theorem wordM_voice (typ mch : BitVec 4) (d1 d2 : BitVec 7) :
    wordM (voiceStatus typ mch) d1 d2 = midiWord (typ.toNat * 2 ^ 4 + mch.toNat) d1 d2 :=
  wordM_eq_midiWord (voiceStatus_toNat typ mch) d1 d2

/-! ### The immediate part -/

/-- The message a word of format M carries (42_midi_in.md R190). -/
def msgOfWord (w : Word) : MidiMsg := { status := byte2 w, d1 := d1Field w, d2 := d2Field w }

theorem msgOfWord_wordM (status : BitVec 8) (d1 d2 : BitVec 7) :
    msgOfWord (wordM status d1 d2) = { status := status, d1 := d1, d2 := d2 } := by
  obtain ⟨hstatus, -, hd1, -, hd2⟩ := wordM_fields status d1 d2
  rw [msgOfWord, hstatus, hd1, hd2]

/-- Every command whose word is of format M enqueues the message of its word. -/
theorem exec_eq_enqueue {i : Instr} (s : State) (hop : opByte (encode i) = 0x10#8) :
    exec i s = .next (s.enqueue (msgOfWord (encode i))) := by
  cases i with
  | mNoteoff | mNoteon | mAtpoly | mCc | mAtchan | mPbend | mClock | mStart | mCont | mStop | mReset
  | mOther => rw [encode, msgOfWord_wordM]; rfl
  | load | send | playstop | tap => simp [encode] at hop
  | readIn | gate | clock | tsc | changed | lastcv | islag | loop | outq | startlag | nlast | nmin
  | nmax | nfirst | susq | nsize | mout | mtrig | logr | tock => simp [encode] at hop
  | out | clkout => simp [encode] at hop
  | cfgw | cfgr => simp [encode] at hop

theorem enqueue_of_lt {s : State} (m : MidiMsg) (h : s.midi.rx.length < s.cfg.rxqDepth) :
    s.enqueue m = { s with resp := 0, midi := { s.midi with rx := s.midi.rx ++ [m] } } := by
  rw [State.enqueue, if_neg (Nat.not_le.mpr h)]
  rfl

theorem enqueue_of_full {s : State} (m : MidiMsg) (h : s.cfg.rxqDepth ≤ s.midi.rx.length) :
    s.enqueue m = { s with resp := 0, midi := { s.midi with rxqOvf := true } } := by
  rw [State.enqueue, if_pos h]
  rfl

/-- Settles O29: the commands of format M are `State.enqueue`, and their reader asks for both zero
bits. -/
theorem midiCommandsOnlyEnqueue : Obligations.MidiCommandsOnlyEnqueue := by
  refine ⟨fun w hop hbits => ?_, fun i s hop => ⟨fun hroom => ?_, fun hfull => ?_⟩⟩
  · have hform : decode w = formM w := by simp only [decode, hop]
    have hset : (!w.getLsbD 15 && !w.getLsbD 7) = false := by
      rcases hbits with h | h <;> simp [h]
    rw [hform, formM, hset]
    rfl
  · rw [exec_eq_enqueue s hop, enqueue_of_lt _ hroom]
    rfl
  · rw [exec_eq_enqueue s hop, enqueue_of_full _ hfull]

/-! ### The dispatch and the activity log -/

/-- The state with another log: where a dispatched message's rule begins (R194, R195). -/
def State.withLog (s : State) (log : List LogEntry) : State :=
  { s with midi := { s.midi with log := log } }

theorem logMessage_of_ne_clock (s : State) {k : MsgKind} (m : MidiMsg) (h : k ≠ .clock) :
    s.logMessage k m = s.withLog (s.logWith k.typ m.d1 m.d2) := by
  rw [State.logWith, List.drop_one]
  cases k with
  | clock => exact absurd rfl h
  | _ => rfl

/-- A dispatched message other than Clock: it is logged, then its rule runs (R194). -/
theorem processMidi_of_kind (s : State) {m : MidiMsg} {k : MsgKind} (hkind : m.kind = some k)
    (hclock : k ≠ .clock) :
    s.processMidi m = (s.withLog (s.logWith k.typ m.d1 m.d2)).onKind k m := by
  rw [processMidi_some s m k hkind, logMessage_of_ne_clock s m hclock]

theorem processMidi_log (s : State) {m : MidiMsg} {k : MsgKind} (hkind : m.kind = some k)
    (hclock : k ≠ .clock) : (s.processMidi m).midi.log = s.logWith k.typ m.d1 m.d2 := by
  rw [processMidi_of_kind s hkind hclock, onKind_log]
  rfl

/-- A Clock message is not logged (R195). -/
theorem processMidi_of_clock (s : State) {m : MidiMsg} (h : m.status = 0xF8#8) :
    s.processMidi m = s.onClock :=
  processMidi_some s m .clock ((kind_congr h).trans (kind_clock m.d1 m.d2))

/-- A log within its depth keeps its newest entries. -/
theorem logWith_eq_drop {s : State} (hd : 0 < s.cfg.logDepth)
    (hlen : s.midi.log.length ≤ s.cfg.logDepth) (typ : BitVec 8) (d1 d2 : BitVec 7) :
    s.logWith typ d1 d2
      = (s.midi.log ++ [({ msg := typ, d1 := d1, d2 := d2 } : LogEntry)]).drop
          (s.midi.log.length + 1 - s.cfg.logDepth) := by
  unfold State.logWith
  by_cases hfull : s.midi.log.length = s.cfg.logDepth
  · rw [if_pos hfull, ← hfull, Nat.add_sub_cancel_left, List.drop_append_of_le_length (by omega)]
  · rw [if_neg hfull, Nat.sub_eq_zero_of_le (by omega), List.drop_zero]

/-- The types that carry a channel (R192). -/
theorem kind_of_voice {typ : BitVec 8}
    (h : typ ∈ [0x80#8, 0x90#8, 0xA0#8, 0xB0#8, 0xD0#8, 0xE0#8]) (mch : BitVec 4)
    (d1 d2 : BitVec 7) :
    ∃ k, MidiMsg.kind ⟨typ ||| mch.setWidth 8, d1, d2⟩ = some k ∧ k.typ = typ ∧ k ≠ .clock := by
  simp only [List.mem_cons, List.not_mem_nil, or_false] at h
  rcases h with rfl | rfl | rfl | rfl | rfl | rfl
  · exact ⟨_, kind_noteOff mch d1 d2, rfl, nofun⟩
  · exact ⟨_, kind_noteOn mch d1 d2, rfl, nofun⟩
  · exact ⟨_, kind_atPoly mch d1 d2, rfl, nofun⟩
  · exact ⟨_, kind_cc mch d1 d2, rfl, nofun⟩
  · exact ⟨_, kind_atChan mch d1 d2, rfl, nofun⟩
  · exact ⟨_, kind_pbend mch d1 d2, rfl, nofun⟩

/-- Start and Continue select one rule (R197, R215). -/
theorem kind_of_start {m : MidiMsg} (h : m.status = 0xFA#8 ∨ m.status = 0xFB#8) :
    ∃ k, m.kind = some k ∧ k.typ = m.status ∧ k ≠ .clock
      ∧ ∀ s : State, s.onKind k m = s.transportStart := by
  rcases h with h | h
  · exact ⟨_, (kind_congr h).trans (kind_start m.d1 m.d2), h.symm, nofun, fun _ => rfl⟩
  · exact ⟨_, (kind_congr h).trans (kind_cont m.d1 m.d2), h.symm, nofun, fun _ => rfl⟩

/-- Stop and SystemReset select one rule (R198, R216). -/
theorem kind_of_stop {m : MidiMsg} (h : m.status = 0xFC#8 ∨ m.status = 0xFF#8) :
    ∃ k, m.kind = some k ∧ k.typ = m.status ∧ k ≠ .clock
      ∧ ∀ s : State, s.onKind k m = s.transportStop := by
  rcases h with h | h
  · exact ⟨_, (kind_congr h).trans (kind_stop m.d1 m.d2), h.symm, nofun, fun _ => rfl⟩
  · exact ⟨_, (kind_congr h).trans (kind_sysReset m.d1 m.d2), h.symm, nofun, fun _ => rfl⟩

theorem processMidi_start (s : State) {m : MidiMsg} (h : m.status = 0xFA#8 ∨ m.status = 0xFB#8) :
    s.processMidi m = (s.withLog (s.logWith m.status m.d1 m.d2)).transportStart := by
  obtain ⟨k, hkind, htyp, hclock, hrule⟩ := kind_of_start h
  rw [processMidi_of_kind s hkind hclock, htyp, hrule]

theorem processMidi_stop (s : State) {m : MidiMsg} (h : m.status = 0xFC#8 ∨ m.status = 0xFF#8) :
    s.processMidi m = (s.withLog (s.logWith m.status m.d1 m.d2)).transportStop := by
  obtain ⟨k, hkind, htyp, hclock, hrule⟩ := kind_of_stop h
  rw [processMidi_of_kind s hkind hclock, htyp, hrule]

/-- Settles O40: every type but Clock is logged under its type byte, within the depth. -/
theorem activityLogKeepsTheNewest : Obligations.ActivityLogKeepsTheNewest := by
  intro s typ mch d1 d2 hd hlen
  refine ⟨fun htyp => ?_, fun htyp => ?_, ?_⟩
  · obtain ⟨k, hkind, hk, hclock⟩ := kind_of_voice htyp mch d1 d2
    rw [processMidi_log s hkind hclock, hk]
    exact logWith_eq_drop hd hlen typ d1 d2
  · have hlog : (s.processMidi ⟨typ, d1, d2⟩).midi.log = s.logWith typ d1 d2 := by
      simp only [List.mem_cons, List.not_mem_nil, or_false] at htyp
      rcases or_assoc.mpr htyp with hstart | hstop
      · rw [processMidi_start s hstart]; rfl
      · rw [processMidi_stop s hstop]; rfl
    exact hlog.trans (logWith_eq_drop hd hlen typ d1 d2)
  · rw [processMidi_of_clock s rfl]
    exact onKind_log s .clock ⟨0xF8#8, d1, d2⟩

/-- The status bytes R111 lists have no type (R192). -/
theorem kind_of_undispatched : ∀ status : BitVec 8,
    status.toNat ∈ [0xF9, 0xFD, 0xFE] ∨ status.toNat < 0x80
      ∨ (0xC0 ≤ status.toNat ∧ status.toNat ≤ 0xCF) ∨ (0xF0 ≤ status.toNat ∧ status.toNat ≤ 0xF7) →
    MidiMsg.kind ⟨status, 0, 0⟩ = none := by
  decide

/-- Settles O39: no type, no rule and no log entry. -/
theorem undispatchedStatusIsDiscarded : Obligations.UndispatchedStatusIsDiscarded := fun s m h =>
  processMidi_none s m ((kind_congr rfl).trans (kind_of_undispatched m.status h))

/-! ### Lanes after a pass -/

theorem forOutputs_get (s : State) (f : OutChannel → OutChannel) (ch : Nat) (h : ch < noutMax) :
    (s.forOutputs f).outs[ch] = if ch < s.cfg.nout then f s.outs[ch] else s.outs[ch] :=
  mapLive_get s.cfg.nout f s.outs ch h

/-- A lane matches a message if it exists and listens to the message's channel (R194). -/
theorem forMatching_get (s : State) (mch : BitVec 4) (f : OutChannel → OutChannel) (ch : Nat)
    (h : ch < noutMax) :
    (s.forMatching mch f).outs[ch]
      = if ch < s.cfg.nout ∧ s.outs[ch].mapMch = mch then f s.outs[ch] else s.outs[ch] := by
  rw [State.forMatching, forOutputs_get, ite_and]

/-! ### Note selection -/

theorem nthNote_of_length {st u : List NoteEntry} {e : NoteEntry} {k : Nat} (h : u.length + 1 = k) :
    nthNote (st ++ e :: u) k = some e := by
  have hidx : (st ++ e :: u).length - k = st.length := by
    rw [List.length_append, List.length_cons]
    omega
  rw [nthNote, hidx, List.getElem?_append_right (Nat.le_refl _), Nat.sub_self]
  rfl

/-- Fewer notes than asked for: the oldest (R193). -/
theorem nthNote_of_short {st : List NoteEntry} {e : NoteEntry} {k : Nat} (h : st.length + 1 < k) :
    nthNote (e :: st) k = some e := by
  have hidx : (e :: st).length - k = 0 := by
    rw [List.length_cons]
    omega
  rw [nthNote, hidx]
  rfl

theorem selectedNote_noteMin {st : List NoteEntry} {e : NoteEntry} (he : e ∈ st)
    (hmin : ∀ e' ∈ st, e.note ≤ e'.note) : selectedNote .noteMin st = some e.note.toNat := by
  cases hm : minNote st with
  | none => rw [minNote_eq_none.mp hm] at he; cases he
  | some m =>
    obtain ⟨hmem, hle⟩ := minNote_spec hm
    have hnote : m.note = e.note := BitVec.le_antisymm (hle e he) (hmin m hmem)
    rw [selectedNote, hm, Option.map_some, hnote]

theorem selectedNote_noteMax {st : List NoteEntry} {e : NoteEntry} (he : e ∈ st)
    (hmax : ∀ e' ∈ st, e'.note ≤ e.note) : selectedNote .noteMax st = some e.note.toNat := by
  cases hm : maxNote st with
  | none => rw [maxNote_eq_none.mp hm] at he; cases he
  | some m =>
    obtain ⟨hmem, hle⟩ := maxNote_spec hm
    have hnote : m.note = e.note := BitVec.le_antisymm (hmax m hmem) (hle e he)
    rw [selectedNote, hm, Option.map_some, hnote]

/-- The functions that ask for a note from the top are `nth` (R200). -/
theorem selectedNote_poly {fn : MapFn} {k : Nat}
    (h : (fn, k) ∈ [(MapFn.notePoly2, 2), (.notePoly3, 3), (.notePoly4, 4)]) (st : List NoteEntry) :
    selectedNote fn st = (nthNote st k).map fun e => e.note.toNat := by
  simp only [List.mem_cons, List.not_mem_nil, or_false, Prod.mk.injEq] at h
  rcases h with ⟨rfl, rfl⟩ | ⟨rfl, rfl⟩ | ⟨rfl, rfl⟩ <;> rfl

/-- Settles O31: each function is one access of the stack. -/
theorem noteSelectionFunctions : Obligations.NoteSelectionFunctions := by
  intro st e
  refine ⟨?_, ?_, rfl, fun fn k hfn => ⟨fun u hu => ?_, fun hshort => ?_⟩, selectedNote_noteMin,
    selectedNote_noteMax, fun fn => ?_⟩
  · rw [selectedNote, lastNote, List.getLast?_concat, Option.map_some]
  · rw [selectedNote, lastNote, List.getLast?_concat, Option.map_some]
  · rw [selectedNote_poly hfn, nthNote_of_length hu, Option.map_some]
  · rw [selectedNote_poly hfn, nthNote_of_short hshort, Option.map_some]
  · cases fn <;> rfl

theorem selectNote_of_some {cfg : Config} {st : List NoteEntry} {c : OutChannel} {k : Nat}
    (h : selectedNote c.mapFn st = some k) :
    c.selectNote cfg st = { c with mOut := noteCV cfg k } := by
  rw [OutChannel.selectNote, h]

theorem selectNote_of_none {cfg : Config} {st : List NoteEntry} {c : OutChannel}
    (h : selectedNote c.mapFn st = none) : c.selectNote cfg st = c := by
  rw [OutChannel.selectNote, h]

/-! ### Note-On and Note-Off -/

section
variable {cfg : Config} {st : List NoteEntry} {v : BitVec 7} {c : OutChannel}

/-- A note-class output takes the note it selects (R199, R200). -/
theorem onNoteOn_of_selected {k : Nat} (h : selectedNote c.mapFn st = some k) :
    c.onNoteOn cfg st v = { c with mOut := noteCV cfg k } := by
  rw [← selectNote_of_some h, OutChannel.onNoteOn]
  cases hfn : c.mapFn with
  | noteLast | notePoly2 | notePoly3 | notePoly4 | noteMin | noteMax | notePedal | noteInv => rfl
  | _ => rw [hfn] at h; cases h

theorem onNoteOn_velocity (h : c.mapFn = .velocity) :
    c.onNoteOn cfg st v = { c with mOut := prop7 cfg v } := by
  rw [OutChannel.onNoteOn, h]

theorem onNoteOn_gate (h : c.mapFn = .gate) :
    c.onNoteOn cfg st v = { c with mOut := gateHigh cfg } := by
  rw [OutChannel.onNoteOn, h]

theorem onNoteOn_trigAlways (h : c.mapFn = .trigAlways) :
    c.onNoteOn cfg st v = { c with mTrig := true } := by
  rw [OutChannel.onNoteOn, h]

theorem onNoteOn_trigFirst (h : c.mapFn = .trigFirst) :
    c.onNoteOn cfg st v = { c with mTrig := c.mTrig || decide (st.length = 1) } := by
  rw [OutChannel.onNoteOn, h]
  rfl

/-- A function no note drives. -/
theorem onNoteOn_other (h : c.mapFn ∈ [MapFn.off, .cc, .aftertouch, .pitchbend, .clock, .start]) :
    c.onNoteOn cfg st v = c := by
  simp only [List.mem_cons, List.not_mem_nil, or_false] at h
  rcases h with h | h | h | h | h | h <;> rw [OutChannel.onNoteOn, h]

theorem onNoteOff_of_selected {k : Nat} (h : selectedNote c.mapFn st = some k) :
    c.onNoteOff cfg st = { c with mOut := noteCV cfg k } := by
  rw [← selectNote_of_some h, OutChannel.onNoteOff]
  cases hfn : c.mapFn with
  | noteLast | notePoly2 | notePoly3 | notePoly4 | noteMin | noteMax | notePedal | noteInv => rfl
  | _ => rw [hfn] at h; cases h

/-- A gate falls with the last note (R204). -/
theorem onNoteOff_gate (h : c.mapFn = .gate) :
    c.onNoteOff cfg st = if st = [] then { c with mOut := 0 } else c := by
  simp only [OutChannel.onNoteOff, h, List.isEmpty_iff]

theorem onNoteOff_other (hgate : c.mapFn ≠ .gate) (h : selectedNote c.mapFn st = none) :
    c.onNoteOff cfg st = c := by
  rw [OutChannel.onNoteOff]
  cases hfn : c.mapFn with
  | noteLast | notePoly2 | notePoly3 | notePoly4 | noteMin | noteMax | notePedal | noteInv =>
    exact selectNote_of_none h
  | gate => exact absurd hfn hgate
  | _ => rfl

end

theorem pushNote_eq {st : List NoteEntry} (n v : BitVec 7) (h : distinctNotes st) :
    pushNote st n v = withoutNote st n ++ [{ note := n, velocity := v }] := by
  rw [pushNote, removeNote_eq st n h]

theorem processMidi_noteOn (s : State) (mch : BitVec 4) (n v : BitVec 7) :
    s.processMidi ⟨0x90#8 ||| mch.setWidth 8, n, v⟩
      = (s.withLog (s.logWith 0x90 n v)).onNoteOn mch ⟨0x90#8 ||| mch.setWidth 8, n, v⟩ :=
  processMidi_of_kind s (kind_noteOn mch n v) nofun

theorem processMidi_noteOff (s : State) (mch : BitVec 4) (n v : BitVec 7) :
    s.processMidi ⟨0x80#8 ||| mch.setWidth 8, n, v⟩
      = (s.withLog (s.logWith 0x80 n v)).onNoteOff mch ⟨0x80#8 ||| mch.setWidth 8, n, v⟩ :=
  processMidi_of_kind s (kind_noteOff mch n v) nofun

/-- Settles O30: the push of R193 on distinct notes, and one lane rule per function. -/
theorem noteOnPromotesAndDrivesOutputs : Obligations.NoteOnPromotesAndDrivesOutputs := by
  intro s mch n v hdistinct
  rw [processMidi_noteOn, ← pushNote_eq n v hdistinct]
  refine ⟨wordM_voice 0x9 mch n v, rfl, fun ch h => ?_⟩
  have hlane := forMatching_get (s.withLog (s.logWith 0x90 n v)) mch
    (OutChannel.onNoteOn s.cfg (pushNote (s.midi.stackOf mch) n v) v) ch h
  refine ⟨fun hdeaf => hlane.trans (if_neg fun ⟨hn, hmch⟩ =>
    hdeaf.elim (Nat.not_le_of_lt hn) (absurd hmch)), fun hn hmch => ?_⟩
  have hdriven := hlane.trans (if_pos ⟨hn, hmch⟩)
  exact
    ⟨fun hfn => ⟨_, holdsCode_toCode _, hdriven.trans (onNoteOn_velocity hfn)⟩,
      fun hfn => ⟨_, holdsCode_toCode _, hdriven.trans (onNoteOn_gate hfn)⟩,
      fun hfn => hdriven.trans (onNoteOn_trigAlways hfn),
      fun hfn => hdriven.trans (onNoteOn_trigFirst hfn),
      fun k hk => ⟨_, holdsCode_toCode _, hdriven.trans (onNoteOn_of_selected hk)⟩,
      fun hfn => hdriven.trans (onNoteOn_other hfn)⟩

/-- What a Note-Off leaves alone, on a latched channel and on another (R204). -/
theorem onNoteOff_registers (s : State) (mch : BitVec 4) (m : MidiMsg) :
    s.onNoteOff mch m = { s with
      outs := (s.onNoteOff mch m).outs,
      midi := s.midi.setStack mch (removeNote (s.midi.stackOf mch) m.d1) } := by
  unfold State.onNoteOff
  dsimp only
  split <;> rfl

theorem onNoteOff_get (s : State) (mch : BitVec 4) (m : MidiMsg) (ch : Nat) (h : ch < noutMax) :
    (s.onNoteOff mch m).outs[ch]
      = if ch < s.cfg.nout ∧ s.outs[ch].mapMch = mch ∧ s.midi.sustain.getLsbD mch.toNat = false then
          s.outs[ch].onNoteOff s.cfg (removeNote (s.midi.stackOf mch) m.d1)
        else s.outs[ch] := by
  unfold State.onNoteOff sustained
  dsimp only
  split
  case isTrue hlatched => simp [hlatched]
  case isFalse hfree =>
    rw [forMatching_get]
    simp [hfree]

/-- Writing a stack with the notes it holds changes no stack. -/
theorem setStack_self (m : MidiState) (mch : BitVec 4) :
    m.setStack mch (m.stackOf mch) = m := by
  rw [MidiState.setStack, MidiState.stackOf, Vector.set_getElem_self]

/-- Settles O32: the stack rule has no condition, the lane rule asks for the latch. -/
theorem noteOffRemovesAndRespectsSustain : Obligations.NoteOffRemovesAndRespectsSustain := by
  intro s mch n v hdistinct
  rw [processMidi_noteOff, ← removeNote_eq _ n hdistinct]
  have hregs := onNoteOff_registers (s.withLog (s.logWith 0x80 n v)) mch
    ⟨0x80#8 ||| mch.setWidth 8, n, v⟩
  refine ⟨wordM_voice 0x8 mch n v, ?_, fun habsent => ?_, fun ch h => ?_⟩
  · rw [hregs]
    rfl
  · rw [hregs]
    have hself := congrArg MidiState.stack (setStack_self s.midi mch)
    rw [← removeNote_absent _ n habsent] at hself
    exact hself
  have hlane := onNoteOff_get (s.withLog (s.logWith 0x80 n v)) mch
    ⟨0x80#8 ||| mch.setWidth 8, n, v⟩ ch h
  refine ⟨fun hdeaf => hlane.trans (if_neg ?_), fun hn hmch hfree => ?_⟩
  · rintro ⟨hn, hmch, hfree⟩
    rcases hdeaf with hdead | hother | hlatched
    · exact absurd hn (Nat.not_lt.mpr hdead)
    · exact hother hmch
    · exact Bool.noConfusion (hfree.symm.trans hlatched)
  have hdriven := hlane.trans (if_pos ⟨hn, hmch, hfree⟩)
  exact
    ⟨fun hfn => hdriven.trans (onNoteOff_gate hfn),
      fun k hk => ⟨_, holdsCode_toCode _, hdriven.trans (onNoteOff_of_selected hk)⟩,
      fun hgate hnone => hdriven.trans (onNoteOff_other hgate hnone)⟩

/-! ### The transport -/

theorem gateOff_eq (c : OutChannel) :
    c.gateOff = { c with mOut := if c.mapFn = .gate then 0 else c.mOut } := by
  unfold OutChannel.gateOff
  split <;> rfl

theorem requestTrig_eq (fn : MapFn) (c : OutChannel) :
    c.requestTrig fn = { c with mTrig := c.mTrig || decide (c.mapFn = fn) } := by
  unfold OutChannel.requestTrig
  by_cases h : c.mapFn = fn <;> simp [h]

/-- A lane after the panic: the gates' pass, then the engine's (R198, 44_clock_engine.md R268). -/
theorem transportStop_get (s : State) (ch : Nat) (h : ch < noutMax) :
    s.transportStop.outs[ch] = if ch < s.cfg.nout then
      { s.outs[ch] with
        mOut := if s.outs[ch].mapFn = .gate then 0 else s.outs[ch].mOut, shufCd := 0 }
      else s.outs[ch] := by
  have houts : s.transportStop.outs
      = mapLive s.cfg.nout (fun c => { c.gateOff with shufCd := 0 }) s.outs :=
    mapLive_mapLive s.cfg.nout OutChannel.gateOff (fun c => { c with shufCd := 0 }) s.outs
  rw [getElem_congr_coll houts, mapLive_get, gateOff_eq]

/-- A lane after a start: the triggers' pass, then the engine's (R197, 44_clock_engine.md R267). -/
theorem transportStart_get (s : State) (ch : Nat) (h : ch < noutMax) :
    s.transportStart.outs[ch] = if ch < s.cfg.nout then
      { s.outs[ch] with
        mTrig := s.outs[ch].mTrig || decide (s.outs[ch].mapFn = .start), pulsePar := false,
        shufCd := 0 }
      else s.outs[ch] := by
  have houts : s.transportStart.outs = mapLive s.cfg.nout
      (fun c => { c.requestTrig .start with pulsePar := false, shufCd := 0 }) s.outs :=
    mapLive_mapLive s.cfg.nout (OutChannel.requestTrig .start)
      (fun c => { c with pulsePar := false, shufCd := 0 }) s.outs
  rw [getElem_congr_coll houts, mapLive_get, requestTrig_eq]

/-- Settles O33: the registers by the definition of the panic, the lanes by its two passes. -/
theorem stopPanicsUnconditionally : Obligations.StopPanicsUnconditionally := by
  refine ⟨fun d1 d2 => ⟨wordM_eq_midiWord rfl d1 d2, wordM_eq_midiWord rfl d1 d2⟩,
    fun s m hm => ?_⟩
  rw [processMidi_stop s hm]
  refine ⟨rfl, fun ch h => ?_⟩
  have hlane := transportStop_get (s.withLog (s.logWith m.status m.d1 m.d2)) ch h
  exact ⟨fun hn => hlane.trans (if_pos hn),
    fun hdead => hlane.trans (if_neg (Nat.not_lt.mpr hdead))⟩

/-- Settles O34: the registers by the definition of the start, the lanes by its two passes. -/
theorem startForcesRunning : Obligations.StartForcesRunning := by
  refine ⟨fun d1 d2 => ⟨wordM_eq_midiWord rfl d1 d2, wordM_eq_midiWord rfl d1 d2⟩,
    fun s m hm => ?_⟩
  rw [processMidi_start s hm]
  refine ⟨rfl, fun ch h => ?_⟩
  have hlane := transportStart_get (s.withLog (s.logWith m.status m.d1 m.d2)) ch h
  exact ⟨fun hn => hlane.trans (if_pos hn),
    fun hdead => hlane.trans (if_neg (Nat.not_lt.mpr hdead))⟩

/-! ### The MIDI clock -/

/-- Settles O35: the two branches of R196; only the wrapping one reaches the lanes. -/
theorem clockMessageCountsThenWraps : Obligations.ClockMessageCountsThenWraps := by
  refine ⟨fun d1 d2 => wordM_eq_midiWord rfl d1 d2, fun s m hm => ?_⟩
  rw [processMidi_of_clock s hm]
  refine ⟨fun hcount => onClock_count s hcount, fun hwrap => ?_⟩
  rw [onClock_wrap s hwrap]
  refine ⟨rfl, fun ch h => (forOutputs_get _ _ ch h).trans ?_⟩
  rw [requestTrig_eq]
  by_cases hn : ch < s.cfg.nout <;> simp [hn]

/-- The counter counts modulo the divisor (R196). -/
theorem onClock_ppqnCnt {s : State} (h : s.midi.ppqnCnt.toNat < s.midi.clkDiv.toNat) :
    s.onClock.midi.ppqnCnt.toNat = (s.midi.ppqnCnt.toNat + 1) % s.midi.clkDiv.toNat := by
  have hdiv : s.midi.clkDiv.toNat < 2 ^ 8 := s.midi.clkDiv.isLt
  by_cases hwrap : s.midi.clkDiv.toNat ≤ s.midi.ppqnCnt.toNat + 1
  · have hfull : s.midi.ppqnCnt.toNat + 1 = s.midi.clkDiv.toNat := by omega
    rw [onClock_wrap s hwrap, hfull, Nat.mod_self]
    rfl
  · rw [onClock_count s (Nat.not_le.mp hwrap), Nat.mod_eq_of_lt (Nat.not_le.mp hwrap)]
    dsimp only
    rw [BitVec.toNat_add, show (1 : BitVec 8).toNat = 1 from rfl, Nat.mod_eq_of_lt (by omega)]

/-- The counter after `n` Clock messages from 0 (R196). -/
theorem afterClocks_ppqnCnt {s : State} (hdiv : s.midi.clkDiv ≠ 0) (hzero : s.midi.ppqnCnt = 0)
    (n : Nat) :
    (afterClocks s n).midi.clkDiv = s.midi.clkDiv
      ∧ (afterClocks s n).midi.ppqnCnt.toNat = n % s.midi.clkDiv.toNat := by
  have hpos : 0 < s.midi.clkDiv.toNat :=
    Nat.pos_of_ne_zero fun h => hdiv (BitVec.eq_of_toNat_eq h)
  induction n with
  | zero => exact ⟨rfl, by rw [afterClocks, hzero, Nat.zero_mod]; rfl⟩
  | succ n ih =>
    obtain ⟨hkept, hcnt⟩ := ih
    have hlt : (afterClocks s n).midi.ppqnCnt.toNat < (afterClocks s n).midi.clkDiv.toNat := by
      rw [hkept, hcnt]
      exact Nat.mod_lt n hpos
    rw [afterClocks, processMidi_of_clock _ rfl]
    refine ⟨(onClock_frame _).clkDiv.trans hkept, ?_⟩
    rw [onClock_ppqnCnt hlt, hkept, hcnt, Nat.mod_add_mod]

/-- The `k + 1`-st message wraps exactly if the divisor divides its number. -/
theorem afterClocks_wraps_iff {s : State} (hdiv : s.midi.clkDiv ≠ 0) (hzero : s.midi.ppqnCnt = 0)
    (k : Nat) :
    (afterClocks s (k + 1)).midi.ppqnCnt = 0 ↔ s.midi.clkDiv.toNat ∣ k + 1 := by
  obtain ⟨-, hcnt⟩ := afterClocks_ppqnCnt hdiv hzero (k + 1)
  rw [Nat.dvd_iff_mod_eq_zero, ← hcnt]
  exact ⟨fun h => by rw [h]; rfl, fun h => BitVec.eq_of_toNat_eq h⟩

/-- Settles O36: by induction on the messages; the quotient grows with the message that wraps. -/
theorem clockDivisorYieldsFloorEvents : Obligations.ClockDivisorYieldsFloorEvents := by
  intro s n hdiv hzero
  refine ⟨(afterClocks_ppqnCnt hdiv hzero n).2, ?_⟩
  induction n with
  | zero => rw [Nat.zero_div]; rfl
  | succ n ih =>
    rw [List.range_succ, List.countP_append, ih, Nat.succ_div, List.countP_singleton]
    simp only [beq_iff_eq, afterClocks_wraps_iff hdiv hzero]

/-! ### Control changes -/

/-- A latch that is set is set by no second press (R206). -/
theorem setSustain_of_sustained {sustain : BitVec 16} {mch : BitVec 4}
    (h : sustained sustain mch = true) : setSustain sustain mch = sustain := by
  unfold sustained at h
  rw [setSustain, ← BitVec.twoPow_eq]
  ext j hj
  rw [BitVec.getElem_or, BitVec.getElem_twoPow]
  by_cases hbit : j = mch.toNat
  · have hset : sustain[j] = true := by rw [← BitVec.getLsbD_eq_getElem hj, hbit, h]
    rw [hset, Bool.true_or]
  · rw [decide_eq_false hbit, Bool.or_false]

theorem sustainOn_eq (s : State) (mch : BitVec 4) :
    s.sustainOn mch
      = { s with midi := { s.midi with sustain := setSustain s.midi.sustain mch } } := by
  unfold State.sustainOn
  split
  case isTrue h => rw [setSustain_of_sustained h]
  case isFalse => rfl

theorem sustainOff_registers (s : State) (mch : BitVec 4) :
    s.sustainOff mch = { s with
      outs := (s.sustainOff mch).outs,
      midi := { s.midi with sustain := clearSustain s.midi.sustain mch } } := by
  unfold State.sustainOff
  dsimp only
  split <;> rfl

/-- The pedal's release lowers the matching gates of a channel that holds no note (R207). -/
theorem sustainOff_get (s : State) (mch : BitVec 4) (ch : Nat) (h : ch < noutMax) :
    (s.sustainOff mch).outs[ch]
      = if ch < s.cfg.nout ∧ s.outs[ch].mapMch = mch ∧ s.outs[ch].mapFn = .gate
          ∧ s.midi.stackOf mch = [] then { s.outs[ch] with mOut := 0 } else s.outs[ch] := by
  by_cases hst : s.midi.stackOf mch = []
  · rw [sustainOff_empty s mch hst, forMatching_get, OutChannel.gateOff]
    simp only [hst, and_true, ← ite_and, and_assoc]
  · rw [sustainOff_held s mch hst, if_neg fun hc => hst hc.2.2.2]

section
variable {cfg : Config} {num val : BitVec 7} {c : OutChannel}

/-- An output without a number learns it, one with this number passes the value (R208). -/
theorem onCc_of_match (hfn : c.mapFn = .cc) (h : c.ccUnset = true ∨ c.mapCc = num) :
    c.onCc cfg num val
      = { c with mapCc := num, ccUnset := false, mOut := prop7 cfg val } := by
  rw [OutChannel.onCc, if_pos hfn]
  cases hset : c.ccUnset with
  | true => simp
  | false =>
    have hnum : c.mapCc = num := h.resolve_left (Bool.eq_false_iff.mp hset)
    dsimp only
    rw [if_neg Bool.false_ne_true, if_pos hnum, ← hnum, ← hset]

theorem onCc_of_other_number (hset : c.ccUnset = false) (hnum : c.mapCc ≠ num) :
    c.onCc cfg num val = c := by
  simp [OutChannel.onCc, hset, hnum]

theorem onCc_of_other_function (hfn : c.mapFn ≠ .cc) : c.onCc cfg num val = c := if_neg hfn

end

theorem processMidi_cc (s : State) (mch : BitVec 4) (num val : BitVec 7) :
    s.processMidi ⟨0xB0#8 ||| mch.setWidth 8, num, val⟩
      = (s.withLog (s.logWith 0xB0 num val)).onCc mch ⟨0xB0#8 ||| mch.setWidth 8, num, val⟩ :=
  processMidi_of_kind s (kind_cc mch num val) nofun

/-- Settles O37: the pedal down, the pedal up, and any other controller. -/
theorem controlChangeSustainsOrLearns : Obligations.ControlChangeSustainsOrLearns := by
  intro s mch num val
  rw [processMidi_cc]
  refine ⟨wordM_voice 0xB mch num val, fun hnum hval => ?_, fun hnum hval => ?_, fun hnum => ?_⟩
  · rw [onCc_down _ mch _ hnum hval, sustainOn_eq]
    rfl
  · rw [onCc_up _ mch _ hnum hval]
    refine ⟨?_, fun ch h => sustainOff_get (s.withLog (s.logWith 0xB0 num val)) mch ch h⟩
    rw [sustainOff_registers]
    rfl
  · rw [onCc_other _ mch _ hnum]
    refine ⟨rfl, fun ch h => ?_⟩
    have hlane := forMatching_get (s.withLog (s.logWith 0xB0 num val)) mch
      (OutChannel.onCc s.cfg num val) ch h
    refine ⟨fun hdeaf => ?_, fun ⟨hn, hmch, hfn⟩ hmatch => ?_, fun ⟨hn, hmch, _⟩ hset hother => ?_⟩
    · refine hlane.trans (ite_eq_right_iff.mpr fun ⟨hn, hmch⟩ => ?_)
      exact onCc_of_other_function fun hfn => hdeaf ⟨hn, hmch, hfn⟩
    · exact ⟨_, holdsCode_toCode _,
        (hlane.trans (if_pos ⟨hn, hmch⟩)).trans (onCc_of_match hfn hmatch)⟩
    · exact (hlane.trans (if_pos ⟨hn, hmch⟩)).trans (onCc_of_other_number hset hother)

/-! ### Aftertouch and pitch bend -/

theorem processMidi_atPoly (s : State) (mch : BitVec 4) (d1 d2 : BitVec 7) :
    s.processMidi ⟨0xA0#8 ||| mch.setWidth 8, d1, d2⟩
      = (s.withLog (s.logWith 0xA0 d1 d2)).onAtPoly mch ⟨0xA0#8 ||| mch.setWidth 8, d1, d2⟩ :=
  processMidi_of_kind s (kind_atPoly mch d1 d2) nofun

theorem processMidi_atChan (s : State) (mch : BitVec 4) (d1 d2 : BitVec 7) :
    s.processMidi ⟨0xD0#8 ||| mch.setWidth 8, d1, d2⟩
      = (s.withLog (s.logWith 0xD0 d1 d2)).forMatching mch (OutChannel.onPressure s.cfg d1) :=
  processMidi_of_kind s (kind_atChan mch d1 d2) nofun

theorem processMidi_pbend (s : State) (mch : BitVec 4) (d1 d2 : BitVec 7) :
    s.processMidi ⟨0xE0#8 ||| mch.setWidth 8, d1, d2⟩
      = (s.withLog (s.logWith 0xE0 d1 d2)).forMatching mch
          (OutChannel.onBend s.cfg (bendValue d1 d2)) :=
  processMidi_of_kind s (kind_pbend mch d1 d2) nofun

theorem bendValue_eq (d1 d2 : BitVec 7) : bendValue d1 d2 = d2.toNat * 128 + d1.toNat :=
  toNat_append_add d2 d1

/-- The most recent note is `n`. -/
theorem lastNote_note_iff {st : List NoteEntry} {n : BitVec 7} :
    (lastNote st).map NoteEntry.note = some n ↔ ∃ u e, st = u ++ [e] ∧ e.note = n := by
  rw [lastNote, Option.map_eq_some_iff]
  constructor
  · rintro ⟨e, he, hn⟩
    obtain ⟨u, rfl⟩ := List.getLast?_eq_some_iff.mp he
    exact ⟨u, e, rfl, hn⟩
  · rintro ⟨u, e, rfl, hn⟩
    exact ⟨e, List.getLast?_concat, hn⟩

/-- Pressure on a lane of R210 and R211. -/
theorem forMatching_onPressure_get (s : State) (mch : BitVec 4) (cfg : Config) (val : BitVec 7)
    (ch : Nat) (h : ch < noutMax) :
    (s.forMatching mch (OutChannel.onPressure cfg val)).outs[ch]
      = if ch < s.cfg.nout ∧ s.outs[ch].mapMch = mch ∧ s.outs[ch].mapFn = .aftertouch then
          { s.outs[ch] with mOut := prop7 cfg val }
        else s.outs[ch] := by
  simp only [forMatching_get, OutChannel.onPressure, ← ite_and, and_assoc]

/-- Bend on a lane (R212). -/
theorem forMatching_onBend_get (s : State) (mch : BitVec 4) (cfg : Config) (v14 : Nat)
    (ch : Nat) (h : ch < noutMax) :
    (s.forMatching mch (OutChannel.onBend cfg v14)).outs[ch]
      = if ch < s.cfg.nout ∧ s.outs[ch].mapMch = mch ∧ s.outs[ch].mapFn = .pitchbend then
          { s.outs[ch] with mOut := prop14 cfg v14 }
        else s.outs[ch] := by
  simp only [forMatching_get, OutChannel.onBend, ← ite_and, and_assoc]

/-- Poly pressure leaves alone all but the lanes (R210). -/
theorem onAtPoly_registers (s : State) (mch : BitVec 4) (m : MidiMsg) :
    s.onAtPoly mch m = { s with outs := (s.onAtPoly mch m).outs } := by
  unfold State.onAtPoly
  split <;> rfl

theorem onAtPoly_get (s : State) (mch : BitVec 4) (m : MidiMsg) (ch : Nat) (h : ch < noutMax) :
    (s.onAtPoly mch m).outs[ch]
      = if (ch < s.cfg.nout ∧ s.outs[ch].mapMch = mch ∧ s.outs[ch].mapFn = .aftertouch)
          ∧ (lastNote (s.midi.stackOf mch)).map NoteEntry.note = some m.d1 then
          { s.outs[ch] with mOut := prop7 s.cfg m.d2 }
        else s.outs[ch] := by
  by_cases htop : (lastNote (s.midi.stackOf mch)).map NoteEntry.note = some m.d1
  · simp only [onAtPoly_top s mch m htop, forMatching_onPressure_get, htop, and_true]
  · rw [onAtPoly_other s mch m htop, if_neg fun ⟨_, hc⟩ => htop hc]

/-- Settles O38: three rules that touch the lanes only, each lane by one condition. -/
theorem pressureAndBendDriveOutputs : Obligations.PressureAndBendDriveOutputs := by
  intro s mch d1 d2 ch h
  have hpoly := onAtPoly_get (s.withLog (s.logWith 0xA0 d1 d2)) mch
    ⟨0xA0#8 ||| mch.setWidth 8, d1, d2⟩ ch h
  have hchan := forMatching_onPressure_get (s.withLog (s.logWith 0xD0 d1 d2)) mch s.cfg d1 ch h
  have hbend := forMatching_onBend_get (s.withLog (s.logWith 0xE0 d1 d2)) mch s.cfg
    (bendValue d1 d2) ch h
  rw [← processMidi_atPoly] at hpoly
  rw [← processMidi_atChan] at hchan
  rw [← processMidi_pbend, bendValue_eq] at hbend
  refine ⟨wordM_voice 0xA mch d1 d2, wordM_voice 0xD mch d1 d2, wordM_voice 0xE mch d1 d2,
    fun typ htyp => ?_,
    fun ⟨ht, htop⟩ => ⟨_, holdsCode_toCode _,
      hpoly.trans (if_pos ⟨ht, lastNote_note_iff.mpr htop⟩)⟩,
    fun hnot => hpoly.trans (if_neg fun ⟨ht, hlast⟩ => hnot ⟨ht, lastNote_note_iff.mp hlast⟩),
    fun ht => ⟨_, holdsCode_toCode _, hchan.trans (if_pos ht)⟩,
    fun hnot => hchan.trans (if_neg hnot),
    fun hb => ⟨_, holdsCode_toCode _, hbend.trans (if_pos hb)⟩,
    fun hnot => hbend.trans (if_neg hnot)⟩
  simp only [List.mem_cons, List.not_mem_nil, or_false] at htyp
  rcases htyp with rfl | rfl | rfl
  · simp only [processMidi_atPoly]
    rw [onAtPoly_registers]
    rfl
  · simp only [processMidi_atChan]
    rfl
  · simp only [processMidi_pbend]
    rfl

end Sys2Proof.Machine
end

section
/-! PROOFS. The statements of 43_midi_query_out.md. A channel query is `queryMidi` with its answer; the
answers are read off the stack operations. For SEND, what the path does to an output is its
`PathAction`, and `actionAt_of_paired` and `actionAt_of_unpaired` say which; the messages and the
lane follow from the action (`pathMsgs_of_live`, `sendTick_path_lane`). -/

namespace Sys2Proof.Machine

/-! ### Queries of a MIDI channel -/

theorem inProcess_of_idle {i : Instr} {s t : State} (h : s.phase = .idle) :
    inProcess i s t = faultOutcome i s .badOrder := by
  simp only [inProcess, h]
  rfl

theorem inProcess_of_process {i : Instr} {s t : State} (h : s.phase = .process) :
    inProcess i s t = .next t := by
  simp only [inProcess, h]

/-- A query of a MIDI channel: its format, and `queryMidi` with an answer its rule allows. -/
theorem channelQuery_of_exec {op : Nat} {mk : BitVec 4 → Instr}
    {rule : BitVec 4 → State → Word → Prop} (answer : BitVec 4 → State → Word)
    (hword : ∀ idx, encode (mk idx) = wordC (BitVec.ofNat 8 op) idx)
    (hexec : ∀ idx s, exec (mk idx) s = queryMidi (mk idx) s (answer idx s))
    (hrule : ∀ idx s, rule idx s (answer idx s)) : ChannelQuery op mk rule := by
  intro idx s
  rw [hexec, queryMidi]
  exact ⟨(hword idx).trans (wordC_eq_indexWord op idx), inProcess_of_idle,
    fun hphase => ⟨answer idx s, inProcess_of_process hphase, hrule idx s⟩⟩

/-- The fields of an entry word do not overlap (R239). -/
theorem entryWord_eq_entryValue (e : NoteEntry) : entryWord e = entryValue e := by
  apply BitVec.eq_of_toNat_eq
  rw [entryValue, BitVec.toNat_ofNat]
  refine (toNat_append_add (0#17 ++ e.velocity ++ 0#1) e.note).trans ?_
  rw [toNat_append_add, toNat_append_add]
  simp only [BitVec.toNat_ofNat]
  omega

theorem entryAnswer_some (e : NoteEntry) : entryAnswer (some e) = entryValue e :=
  entryWord_eq_entryValue e

/-- On a stack of distinct notes the note identifies the entry (10_state.md R38). -/
theorem distinctNotes.eq_of_note_eq {st : List NoteEntry} (h : distinctNotes st) {a b : NoteEntry}
    (ha : a ∈ st) (hb : b ∈ st) (hnote : a.note = b.note) : a = b :=
  List.inj_on_of_nodup_map h ha hb hnote

theorem minNote_eq_some {st : List NoteEntry} {e : NoteEntry} (he : e ∈ st) (hst : distinctNotes st)
    (hmin : ∀ e' ∈ st, e.note ≤ e'.note) : minNote st = some e := by
  obtain ⟨m, hm⟩ := Option.ne_none_iff_exists'.mp
    fun hnone => List.ne_nil_of_mem he (minNote_eq_none.mp hnone)
  obtain ⟨hmem, hle⟩ := minNote_spec hm
  rw [hm, hst.eq_of_note_eq hmem he (BitVec.le_antisymm (hle e he) (hmin m hmem))]

theorem maxNote_eq_some {st : List NoteEntry} {e : NoteEntry} (he : e ∈ st) (hst : distinctNotes st)
    (hmax : ∀ e' ∈ st, e'.note ≤ e.note) : maxNote st = some e := by
  obtain ⟨m, hm⟩ := Option.ne_none_iff_exists'.mp
    fun hnone => List.ne_nil_of_mem he (maxNote_eq_none.mp hnone)
  obtain ⟨hmem, hle⟩ := maxNote_spec hm
  rw [hm, hst.eq_of_note_eq hmem he (BitVec.le_antisymm (hmax m hmem) (hle e he))]

/-- Settles O19: the six queries are `queryMidi`, and each answer is one access of the channel's stack or
of its latch. -/
theorem channelQueriesAnswer : Obligations.ChannelQueriesAnswer := by
  refine ⟨channelQuery_of_exec (fun idx s => entryAnswer (lastNote (s.midi.stackOf idx)))
      (fun _ => rfl) (fun _ _ => rfl) fun idx s => ⟨fun hnil => ?_, fun st e hst => ?_⟩,
    channelQuery_of_exec (fun idx s => entryAnswer (firstNote (s.midi.stackOf idx)))
      (fun _ => rfl) (fun _ _ => rfl) fun idx s => ⟨fun hnil => ?_, fun st e hst => ?_⟩,
    channelQuery_of_exec (fun idx s => entryAnswer (minNote (s.midi.stackOf idx)))
      (fun _ => rfl) (fun _ _ => rfl) fun idx s => ⟨fun hnil => ?_, fun e he hdist hmin => ?_⟩,
    channelQuery_of_exec (fun idx s => entryAnswer (maxNote (s.midi.stackOf idx)))
      (fun _ => rfl) (fun _ _ => rfl) fun idx s => ⟨fun hnil => ?_, fun e he hdist hmax => ?_⟩,
    channelQuery_of_exec (fun idx s => flagWord (sustained s.midi.sustain idx))
      (fun _ => rfl) (fun _ _ => rfl) fun _ _ => rfl,
    channelQuery_of_exec (fun idx s => BitVec.ofNat 32 (s.midi.stackOf idx).length)
      (fun _ => rfl) (fun _ _ => rfl) fun _ _ => rfl⟩
  · rw [hnil]; rfl
  · rw [hst, lastNote, List.getLast?_concat, entryAnswer_some]
  · rw [hnil]; rfl
  · rw [hst, firstNote, List.head?_cons, entryAnswer_some]
  · rw [hnil]; rfl
  · rw [minNote_eq_some he hdist hmin, entryAnswer_some]
  · rw [hnil]; rfl
  · rw [maxNote_eq_some he hdist hmax, entryAnswer_some]

/-! ### The activity log -/

/-- The fields of a log word do not overlap (R238). -/
theorem logWord_eq (e : LogEntry) :
    logWord e = BitVec.ofNat 32 (e.msg.toNat * 2 ^ 16 + e.d1.toNat * 2 ^ 8 + e.d2.toNat) := by
  apply BitVec.eq_of_toNat_eq
  rw [BitVec.toNat_ofNat]
  refine (toNat_append_add (0#8 ++ e.msg ++ 0#1 ++ e.d1 ++ 0#1) e.d2).trans ?_
  rw [toNat_append_add, toNat_append_add, toNat_append_add, toNat_append_add]
  simp only [BitVec.toNat_ofNat]
  omega

theorem logAnswer_of_some {log : List LogEntry} {pos : Nat} {e : LogEntry} (h : log[pos]? = some e) :
    logAnswer log pos = logWord e := by
  rw [logAnswer, h]

theorem logAnswer_of_le {log : List LogEntry} {pos : Nat} (h : log.length ≤ pos) :
    logAnswer log pos = allOnes := by
  rw [logAnswer, List.getElem?_eq_none h]

/-- `LOGR` at a position within the depth (R238). -/
theorem exec_logr_of_lt {idx : BitVec 4} {s : State} (hphase : s.phase = .process)
    (hpos : idx.toNat < s.cfg.logDepth) :
    exec (.logr idx) s = .next (s.respond (logAnswer s.midi.log idx.toNat)) :=
  indexed_of_some hphase (if_pos hpos)

/-- Settles O20: `LOGR` is an indexed command over the positions of the log. -/
theorem logQueryAnswers : Obligations.LogQueryAnswers := by
  intro idx s
  refine ⟨wordC_eq_indexWord 0x48 idx, fun hphase => indexed_of_idle hphase,
    fun hphase hpos => indexed_of_none hphase (if_neg (Nat.not_lt.mpr hpos)),
    fun hphase hpos => ⟨fun e he => ?_, fun hlen => ?_⟩⟩
  · rw [exec_logr_of_lt hphase hpos, logAnswer_of_some he, logWord_eq]
    rfl
  · rw [exec_logr_of_lt hphase hpos, logAnswer_of_le hlen]
    rfl

/-! ### The outbound note path: which action -/

/-- `CVToNote` with a whole number of codes per semitone (00_scope.md R11). -/
theorem cvToNote_eq {cfg : Config} (h : 0 < cfg.codesPerSemitone) (v : Code) :
    cvToNote cfg v = BitVec.ofInt 7 (max 0 (min
      (Int.fdiv (v.toInt + cfg.codesPerSemitone / 2) cfg.codesPerSemitone + cfg.noteCvZero) 127)) := by
  rw [cvToNote, if_neg (Nat.ne_of_gt h), Int.natCast_ediv, Nat.cast_ofNat, ← BitVec.ofInt_natCast,
    clampInt, Int.toNat_of_nonneg (le_max_left _ _)]

/-- A gate output rises through the threshold (R243). -/
theorem risingEdge_high_iff (cfg : Config) (old new : Code) :
    risingEdge (high cfg old) (high cfg new) = true ↔
      ¬ (cfg.gateThreshold : Int) < old.toInt ∧ (cfg.gateThreshold : Int) < new.toInt := by
  rw [risingEdge_iff, high, high, decide_eq_false_iff_not, decide_eq_true_iff]

theorem nextLane_of_live (s : State) {ch : Nat} (h : ch + 1 < noutMax) (hn : ch + 1 < s.cfg.nout) :
    s.nextLane ch = some s.outs[ch + 1] := by
  rw [State.nextLane, if_pos hn, Vector.getElem?_eq_getElem h]

theorem mem_nextLane {s : State} {ch : Nat} {g : OutChannel} (hg : g ∈ s.nextLane ch) :
    ∃ h : ch + 1 < noutMax, ch + 1 < s.cfg.nout ∧ s.outs[ch + 1] = g := by
  rw [State.nextLane] at hg
  split at hg
  · obtain ⟨h, hget⟩ := Vector.getElem?_eq_some_iff.mp hg
    exact ⟨h, ‹_›, hget⟩
  · cases hg

section
variable {s : State} {ch : Nat} {c : OutChannel}

/-- A note output with a gate on the next output (R243, R245). -/
theorem actionAt_of_paired {g : OutChannel} (hn : ch < s.cfg.nout) (hc : c.moFn = .note)
    (hnext : s.nextLane ch = some g) (hg : g.moFn = .gate) :
    s.actionAt ch c =
      if risingEdge (high s.cfg g.prevOut) (high s.cfg g.out) then .start (cvToNote s.cfg c.out)
      else if c.sndValid ∧ cvToNote s.cfg c.out ≠ c.sndNote then .retrigger (cvToNote s.cfg c.out)
      else .quiet := by
  simp only [State.actionAt, if_pos hn, pathAction, hc, hnext, Option.filter_some, hg, beq_self_eq_true,
    if_true]

/-- A note output without one (R243, R246). -/
theorem actionAt_of_unpaired (hn : ch < s.cfg.nout) (hc : c.moFn = .note)
    (hnext : ∀ g ∈ s.nextLane ch, g.moFn ≠ .gate) :
    s.actionAt ch c =
      if cvToNote s.cfg c.out ≠ cvToNote s.cfg c.prevOut then .retrigger (cvToNote s.cfg c.out)
      else .quiet := by
  have hfilter : ((s.nextLane ch).filter fun g => g.moFn == .gate) = none :=
    Option.filter_eq_none_iff.mpr fun g hg => by simpa using hnext g hg
  simp only [State.actionAt, if_pos hn, pathAction, hc, hfilter]

end

/-! ### The outbound note path: what an action emits and leaves -/

/-- The messages the path emits for output `ch`; none for an output that does not exist. -/
def State.pathMsgs (s : State) (ch : Nat) : List OutMsg :=
  s.outs[ch]?.elim [] fun c => actionMsgs s.cfg c (s.actionAt ch c)

theorem pathMsgs_of_lt (s : State) {ch : Nat} (h : ch < noutMax) :
    s.pathMsgs ch = actionMsgs s.cfg s.outs[ch] (s.actionAt ch s.outs[ch]) := by
  rw [State.pathMsgs, Vector.getElem?_eq_getElem h, Option.elim_some]

theorem pathMsgs_of_le (s : State) {ch : Nat} (h : noutMax ≤ ch ∨ s.cfg.nout ≤ ch) :
    s.pathMsgs ch = [] := by
  by_cases hmax : ch < noutMax
  · rw [pathMsgs_of_lt s hmax, actionAt_dead s ch _ (h.resolve_left (Nat.not_le.mpr hmax)), actionMsgs]
  · rw [State.pathMsgs, Vector.getElem?_eq_none (Nat.not_lt.mp hmax), Option.elim_none]

theorem flatMap_range_of_nil {α : Type} {f : Nat → List α} {n m : Nat} (hnm : n ≤ m)
    (hnil : ∀ k, n ≤ k → f k = []) : (List.range m).flatMap f = (List.range n).flatMap f := by
  obtain ⟨d, rfl⟩ := Nat.exists_eq_add_of_le hnm
  rw [List.range_add, List.flatMap_append, List.append_right_eq_self, List.flatMap_map,
    List.flatMap_eq_nil_iff]
  exact fun k _ => hnil (n + k) (Nat.le_add_right n k)

/-- What the path appends, output by output in ascending order (R243). -/
theorem notePath_tx_eq_flatMap (s : State) :
    s.notePath.midi.tx = s.midi.tx ++ (List.range s.cfg.nout).flatMap s.pathMsgs := by
  have hslots : (s.outs.toList.mapIdx fun ch c => actionMsgs s.cfg c (s.actionAt ch c)) =
      (List.range noutMax).map s.pathMsgs := by
    apply List.ext_getElem
    · simp
    · intro ch h h'
      have hch : ch < noutMax := by simpa using h'
      simp [pathMsgs_of_lt s hch]
  have hlive : (List.range noutMax).flatMap s.pathMsgs = (List.range s.cfg.nout).flatMap s.pathMsgs := by
    rcases Nat.le_total s.cfg.nout noutMax with hle | hle
    · exact flatMap_range_of_nil hle fun k hk => pathMsgs_of_le s (.inr hk)
    · exact (flatMap_range_of_nil hle fun k hk => pathMsgs_of_le s (.inl hk)).symm
  rw [notePath_tx, hslots, ← hlive, List.flatMap_def]

/-- With the path on, SEND drives the tick's messages and then the path's (40_tick_phases.md R141,
R144). -/
theorem sendTick_midiOut_of_auto {s : State} (hauto : s.midi.autoOut = true) :
    s.sendTick.midiOut = s.midi.tx ++ (List.range s.cfg.nout).flatMap s.pathMsgs := by
  rw [sendTick_midiOut, State.outboundPath, if_pos (by rw [driveDacs_midi]; exact hauto),
    notePath_tx_eq_flatMap]
  rfl

/-- A Note-Off of a sounding note, then the Note-On, with the status bytes as numbers (R244). -/
theorem retriggerMsgs_eq (cfg : Config) (nn : BitVec 7) (c : OutChannel) :
    retriggerMsgs cfg nn c =
      (if c.sndValid then
        [{ status := 0x80#8 ||| c.sndChan.setWidth 8, d1 := c.sndNote.setWidth 8, d2 := 0 }]
        else [])
      ++ [{ status := 0x90#8 ||| c.moChan.setWidth 8, d1 := nn.setWidth 8,
            d2 := fitNat 8 cfg.moVelocity }] := by
  rw [retriggerMsgs, OutChannel.noteOffMsg, ← status_or, ← status_or]
  rfl

/-- A live output after SEND with the path on: its action, and `prev_out` follows (R142, R144). -/
theorem sendTick_lane_of_auto {s : State} (hauto : s.midi.autoOut = true) {ch : Nat}
    (h : ch < noutMax) (hn : ch < s.cfg.nout) :
    s.sendTick.outs[ch] =
      { s.outs[ch].afterAction s.midi.moHold (s.actionAt ch s.outs[ch]) with
        prevOut := s.outs[ch].out } := by
  rw [sendTick_lane, if_pos hauto, if_pos hn]

/-- Settles O42: each premise of the statement selects one action, and each action is one of its two
conclusions. -/
theorem noteOutputRetriggersOffBeforeOn : Obligations.NoteOutputRetriggersOffBeforeOn := by
  intro s hprocess hauto hcps
  refine ⟨_, exec_send_of_process hprocess, fitNat 8 s.cfg.moVelocity, s.pathMsgs,
    holdsNat_fitNat 8 s.cfg.moVelocity, sendTick_midiOut_of_auto hauto, fun ch h hn => ?_⟩
  intro c d semitones note now noteOff noteOn quiet sounds
  have hnote : ∀ v, cvToNote s.cfg v = note v := cvToNote_eq hcps
  have hmsgs : s.pathMsgs ch = actionMsgs s.cfg c (s.actionAt ch c) := pathMsgs_of_lt s h
  have hlane : d = { c.afterAction s.midi.moHold (s.actionAt ch c) with prevOut := c.out } :=
    sendTick_lane_of_auto hauto h hn
  have hquiet : s.actionAt ch c = .quiet → quiet := fun ha => by
    rw [ha] at hmsgs hlane
    exact ⟨hmsgs, hlane⟩
  have hretrigger : s.actionAt ch c = .retrigger now → sounds c.noteoffCd := fun ha => by
    rw [ha] at hmsgs hlane
    exact ⟨hmsgs.trans (retriggerMsgs_eq s.cfg now c), hlane⟩
  have hstart : s.actionAt ch c = .start now → sounds s.midi.moHold := fun ha => by
    rw [ha] at hmsgs hlane
    exact ⟨hmsgs.trans (retriggerMsgs_eq s.cfg now c), hlane⟩
  refine ⟨fun hfn => hquiet (actionAt_quiet s ch c hfn), fun hn' hfn hlive hgate => ?_,
    fun hfn hgate => ?_⟩
  · have ha := actionAt_of_paired hn hfn (nextLane_of_live s hn' hlive) hgate
    rw [hnote c.out] at ha
    have hrise := risingEdge_high_iff s.cfg s.outs[ch + 1].prevOut s.outs[ch + 1].out
    refine ⟨fun hr => hstart (ha.trans (if_pos (hrise.mpr hr))),
      fun hr hvalid hmoved => hretrigger (ha.trans ?_), fun hr hsame => hquiet (ha.trans ?_)⟩
    · rw [if_neg (mt hrise.mp hr), if_pos ⟨hvalid, hmoved⟩]
    · rw [if_neg (mt hrise.mp hr), if_neg]
      rintro ⟨hvalid, hmoved⟩
      rcases hsame with hoff | hsame
      · exact Bool.false_ne_true (hoff.symm.trans hvalid)
      · exact hmoved hsame
  · have hnext : ∀ g ∈ s.nextLane ch, g.moFn ≠ .gate := fun g hg => by
      obtain ⟨hn', hlive, rfl⟩ := mem_nextLane hg
      exact hgate hn' hlive
    have ha := actionAt_of_unpaired hn hfn hnext
    rw [hnote c.out, hnote c.prevOut] at ha
    exact ⟨fun hmoved => hretrigger (ha.trans (if_pos hmoved)),
      fun hsame => hquiet (ha.trans (if_neg (not_not_intro hsame)))⟩

end Sys2Proof.Machine
end

section
/-! PROOFS. The statements of 44_clock_engine.md. A schedule's positions in a beat are counted once
(`countP_pulsePositions`), for the nominal pulses and for the MIDI clock; a free-running beat is an
induction over clock steps without a sync pulse (`FreeRun`); a clock step while RUNNING is a beat's work
under the engine that the count or the sync pulse leaves (`State.beatUnder`, `syncPulse_eq`). -/

namespace Sys2Proof.Machine

/-! ### PLAYSTOP -/

theorem stopActions_get (s : State) (ch : Nat) (h : ch < noutMax) :
    s.stopActions.outs[ch] =
      if ch < s.cfg.nout then { s.outs[ch] with shufCd := 0 } else s.outs[ch] :=
  forOutputs_get s _ ch h

theorem startActions_get (s : State) (ch : Nat) (h : ch < noutMax) :
    s.startActions.outs[ch] =
      if ch < s.cfg.nout then { s.outs[ch] with pulsePar := false, shufCd := 0 }
      else s.outs[ch] :=
  forOutputs_get s _ ch h

theorem togglePlay_of_running {s : State} (h : s.clk.state = .running) :
    s.togglePlay = (s.setClkState .stopped).stopActions := by
  simp only [State.togglePlay, h]

theorem togglePlay_of_stopped {s : State} (h : s.clk.state = .stopped) :
    s.togglePlay = s.setClkState .paused := by
  simp only [State.togglePlay, h]

theorem togglePlay_of_paused {s : State} (h : s.clk.state = .paused) :
    s.togglePlay = (s.setClkState .running).startActions := by
  simp only [State.togglePlay, h]

/-- The cycle's actions touch the outputs that exist only (44_clock_engine.md R267, R268). -/
theorem togglePlay_dead (s : State) (ch : Nat) (h : ch < noutMax) (hn : s.cfg.nout ≤ ch) :
    s.togglePlay.outs[ch] = s.outs[ch] := by
  cases hstate : s.clk.state with
  | running =>
    rw [togglePlay_of_running hstate]
    exact (stopActions_get _ ch h).trans (if_neg (Nat.not_lt.mpr hn))
  | stopped => rw [togglePlay_of_stopped hstate]; rfl
  | paused =>
    rw [togglePlay_of_paused hstate]
    exact (startActions_get _ ch h).trans (if_neg (Nat.not_lt.mpr hn))

/-- Settles O43, by the state `PLAYSTOP` finds: the registers by the definition of its actions, the
lanes by their pass. -/
theorem playstopCycles : Obligations.PlaystopCycles := by
  intro s
  refine ⟨rfl, inProcess_of_idle, fun hphase => ?_⟩
  refine ⟨s.togglePlay.respond 0, inProcess_of_process hphase, fun hrunning => ?_,
    fun hstopped => ?_, fun hpaused => ?_, togglePlay_dead s⟩
  · rw [togglePlay_of_running hrunning]
    exact ⟨rfl, fun ch h hn => (stopActions_get (s.setClkState .stopped) ch h).trans (if_pos hn)⟩
  · rw [togglePlay_of_stopped hstopped]
    rfl
  · rw [togglePlay_of_paused hpaused]
    exact ⟨rfl, fun ch h hn => (startActions_get (s.setClkState .running) ch h).trans (if_pos hn)⟩

/-! ### Tap tempo -/

/-- A legal tempo fits its two elements (44_clock_engine.md R271). -/
theorem setTempo_eq (k : ClockState) {cfg : Config} (hc : cfg.Legal) {b : Nat}
    (hl : cfg.bpmMin ≤ b) (hu : b ≤ cfg.bpmMax) :
    k.setTempo cfg b =
      { k with bpm := BitVec.ofNat 9 b, beatTicks := BitVec.ofNat 20 (cfg.ticksPerMin / b) } := by
  obtain ⟨hmin, -, -, hmax⟩ := hc.bpm
  have hbeat := (cfg.beat_in_range hmin hl hu).2.trans_lt hc.beat.2
  rw [ClockState.setTempo, quotient_eq _ (by omega), fitNat_eq (by omega), fitNat_eq hbeat]

/-- The tempo of an average interval, where the range of tempos is not empty (R269). -/
theorem tapBpm_eq {cfg : Config} (hc : cfg.Legal) (avg : Nat) :
    tapBpm cfg avg = if avg = 0 then cfg.bpmMax
      else max cfg.bpmMin (min (cfg.ticksPerMin / avg) cfg.bpmMax) := by
  rw [tapBpm, clampNat_eq _ (bpm_le_of_legal hc)]

/-- The interval that makes `TAP_N`, under legal parameters (R269). -/
theorem tapInterval_sets_eq (k : ClockState) {cfg : Config} (hc : cfg.Legal) {iv : BitVec 32}
    (hiv : iv.toNat ≤ cfg.tapMaxTicks) (hlast : k.tapN + 1 = cfg.tapN) {sum b : Nat}
    (hsum : tapSum (k.tapBuf.set k.tapN iv) = sum) (hb : tapBpm cfg (sum / cfg.tapN) = b) :
    k.tapInterval cfg iv = { k with
      tapBuf := k.tapBuf.set k.tapN iv, tapN := 0, bpm := BitVec.ofNat 9 b,
      beatTicks := BitVec.ofNat 20 (cfg.ticksPerMin / b) } := by
  obtain ⟨hlow, hhigh⟩ := tapBpm_range hc (sum / cfg.tapN)
  rw [tapInterval_sets k cfg iv hiv hlast, hsum, setTempo_eq _ hc hlow hhigh, hb]

theorem exec_tap_of_process {s : State} (hphase : s.phase = .process) :
    exec .tap s = .next { s with resp := 0, clk := s.clk.tapPress s.cfg s.tickCount } :=
  inProcess_of_process hphase

/-- Settles O44, by the cases of a press: the first, a too long interval, a stored one, the last of a
gesture. -/
theorem tapSetsTempoFromThreeIntervals : Obligations.TapSetsTempoFromThreeIntervals := by
  intro s
  refine ⟨rfl, inProcess_of_idle, fun hphase => ?_⟩
  intro iv noted leaves short held sets
  have hleaves {k : ClockState} (h : s.clk.tapPress s.cfg s.tickCount = k) : leaves k :=
    h ▸ exec_tap_of_process hphase
  have hnext {k : ClockState} (hvalid : s.clk.lastTapValid = true)
      (h : s.clk.tapInterval s.cfg iv = k) :
      leaves { k with lastTap := s.tickCount, lastTapValid := true } :=
    hleaves (h ▸ tapPress_next s.clk s.cfg s.tickCount hvalid)
  have hsets (hshort : short) (hlast : s.clk.tapN + 1 = s.cfg.tapN) (hlegal : s.cfg.legal = true)
      {sum : Nat} (hsum : (held.map BitVec.toNat).sum = sum) : sets sum :=
    have hc := Config.legal_elim hlegal
    hnext hshort.1 (tapInterval_sets_eq s.clk hc hshort.2 hlast hsum (tapBpm_eq hc _))
  refine ⟨fun hfirst => hleaves (tapPress_first _ _ _ hfirst),
    fun hvalid hlong => hnext hvalid (tapInterval_long _ _ _ hlong),
    fun hshort hmore => hnext hshort.1 (tapInterval_stores _ _ _ hshort.2 hmore),
    fun hshort hlast hlegal => hsets hshort hlast hlegal rfl, ?_⟩
  intro first second third hbuf hshort htwo hthree hlegal
  have hheld : held = [first, second, iv] := by
    simp only [held, hbuf, htwo, List.set_cons_succ, List.set_cons_zero]
  refine ⟨hheld, hsets hshort (by omega) hlegal ?_⟩
  rw [hheld]
  simp only [List.map_cons, List.map_nil, List.sum_cons, List.sum_nil]
  omega

/-! ### Nominal pulses -/

/-- In a beat of at least `m` ticks the `m` positions are all different (44_clock_engine.md R272). -/
theorem pulsePosition_lt {beat m k l : Nat} (hm : 0 < m) (h : m ≤ beat) (hkl : k < l) :
    k * beat / m < l * beat / m :=
  calc k * beat / m < k * beat / m + 1 := Nat.lt_succ_self _
    _ = (k * beat + m) / m := (Nat.add_div_right _ hm).symm
    _ ≤ ((k + 1) * beat) / m := Nat.div_le_div_right (by rw [Nat.succ_mul]; omega)
    _ ≤ l * beat / m := Nat.div_le_div_right (Nat.mul_le_mul_right beat hkl)

/-- A beat of at least `m` ticks has exactly `m` positions of the form `k * beat div m` (R272, R279). -/
theorem countP_pulsePositions {beat m : Nat} (hm : 0 < m) (h : m ≤ beat) {due : Nat → Bool}
    (hdue : ∀ p, p < beat → (due p = true ↔ ∃ k, k < m ∧ k * beat / m = p)) :
    (List.range beat).countP due = m := by
  have hnodup : ((List.range m).map fun k => k * beat / m).Nodup :=
    (List.nodup_map_iff_inj_on List.nodup_range).mpr fun k _ l _ heq => by
      rcases Nat.lt_trichotomy k l with hlt | rfl | hlt
      · exact absurd heq (pulsePosition_lt hm h hlt).ne
      · rfl
      · exact absurd heq (pulsePosition_lt hm h hlt).ne'
  have hperm : ((List.range beat).filter due).Perm ((List.range m).map fun k => k * beat / m) := by
    refine (List.perm_ext_iff_of_nodup (List.nodup_range.filter due) hnodup).mpr fun p => ?_
    simp only [List.mem_filter, List.mem_range, List.mem_map]
    refine ⟨fun ⟨hp, hd⟩ => (hdue p hp).mp hd, fun ⟨k, hk, hkp⟩ => ?_⟩
    have hp : p < beat := by
      rw [← hkp, Nat.div_lt_iff_lt_mul hm, Nat.mul_comm beat m]
      exact Nat.mul_lt_mul_of_pos_right hk (by omega)
    exact ⟨hp, (hdue p hp).mpr ⟨k, hk, hkp⟩⟩
  rw [List.countP_eq_length_filter, hperm.length_eq, List.length_map, List.length_range]

theorem any_pulsePosition_iff {beat m p : Nat} :
    ((List.range m).any fun k => k * beat / m == p) = true ↔ ∃ k, k < m ∧ k * beat / m = p := by
  simp only [List.any_eq_true, List.mem_range, beq_iff_eq]

section
variable {cfg : Config} {mult : BitVec 8} {beat pos count m : Nat}

/-- A position of a multiplied channel's schedule (R272). -/
theorem nominalPulse_of_position (hn : 0 < mult.toInt) (hm : mult.toInt.toNat + cfg.multPosOffset = m)
    (h : ∃ k, k < m ∧ k * beat / m = pos) :
    nominalPulse cfg mult beat pos count = some (beat / m) := by
  subst hm
  rw [nominalPulse_pos cfg mult beat pos count hn, if_pos (any_pulsePosition_iff.mpr h)]

/-- Any other position of a multiplied channel (R272). -/
theorem nominalPulse_of_no_position (hn : 0 < mult.toInt)
    (hm : mult.toInt.toNat + cfg.multPosOffset = m) (h : ¬ ∃ k, k < m ∧ k * beat / m = pos) :
    nominalPulse cfg mult beat pos count = none := by
  subst hm
  rw [nominalPulse_pos cfg mult beat pos count hn, if_neg (mt any_pulsePosition_iff.mp h)]

theorem nominalPulse_isSome_iff (hn : 0 < mult.toInt)
    (hm : mult.toInt.toNat + cfg.multPosOffset = m) :
    (nominalPulse cfg mult beat pos count).isSome = true ↔ ∃ k, k < m ∧ k * beat / m = pos := by
  by_cases h : ∃ k, k < m ∧ k * beat / m = pos
  · rw [nominalPulse_of_position hn hm h]
    exact ⟨fun _ => h, fun _ => rfl⟩
  · rw [nominalPulse_of_no_position hn hm h]
    exact ⟨fun hsome => Bool.noConfusion hsome, fun k => absurd k h⟩

end

/-- Settles O45, by the sign of the multiplier; the pulses of a beat are counted by
`countP_pulsePositions`. -/
theorem nominalPulsesPerBeat : Obligations.NominalPulsesPerBeat := by
  intro cfg mult beat count n m d
  refine ⟨fun hpos p => ⟨nominalPulse_of_position hpos rfl, fun hnone => ?_⟩, fun hpos hbeat => ?_,
    fun hneg p => ?_, fun hzero p => nominalPulse_zero cfg mult beat p count hzero⟩
  · exact nominalPulse_of_no_position hpos rfl fun ⟨k, hk, hkp⟩ => hnone k hk hkp
  · have hm : 0 < m := Nat.add_pos_left (by omega) _
    exact countP_pulsePositions hm hbeat fun p _ => nominalPulse_isSome_iff hpos rfl
  · rw [nominalPulse_neg cfg mult beat p count hneg]
    simp only [Nat.dvd_iff_mod_eq_zero, d, n]

/-! ### ChannelPulse -/

/-- Settles O46: the schedule gives the nominal period or none, and the lane follows by the laws of
`channelPulse`. -/
theorem channelPulseFiresOrDelays : Obligations.ChannelPulseFiresOrDelays := by
  intro cfg k c d n m each nominal period delay left due
  have hdue : (c.shufCd != 0 && left == 0) = due := shufCd_due c.shufCd
  have hnone (h : ¬ nominal) :
      nominalPulse cfg c.mult k.beatTicks.toNat k.beatPos.toNat k.beatCount.toNat = none := by
    obtain ⟨hmult, hdiv⟩ := not_or.mp h
    rcases Int.lt_trichotomy n 0 with hneg | hzero | hpos
    · rw [nominalPulse_neg _ _ _ _ _ hneg, if_neg]
      exact fun ⟨hp, hcount⟩ => hdiv ⟨hneg, BitVec.eq_of_toNat_eq hp, hcount⟩
    · exact nominalPulse_zero _ _ _ _ _ hzero
    · exact nominalPulse_of_no_position hpos rfl fun hposition => hmult ⟨hpos, hposition⟩
  have hsome (h : nominal) :
      nominalPulse cfg c.mult k.beatTicks.toNat k.beatPos.toNat k.beatCount.toNat
        = some period := by
    rcases h with ⟨hpos, hposition⟩ | ⟨hneg, hp, hcount⟩
    · rw [nominalPulse_of_position hpos rfl hposition]
      exact congrArg some (if_pos hpos).symm
    · rw [nominalPulse_neg _ _ _ _ _ hneg, if_pos ⟨congrArg BitVec.toNat hp, hcount⟩]
      exact congrArg some (if_neg (Int.not_lt.mpr hneg.le)).symm
  refine ⟨fun h => ?_, fun h hfire => channelPulse_fires cfg k c period (hsome h) hfire,
    fun h hpar hdelay => ⟨fitNat 32 delay, holdsNat_fitNat 32 delay, ?_⟩⟩
  · rw [← hdue]
    exact channelPulse_none cfg k c (hnone h)
  · rw [← hdue]
    have hdelays := channelPulse_delays cfg k c period (hsome h) hpar hdelay
    rw [hpar] at hdelays
    exact hdelays

/-! ### Shuffle -/

theorem shuffleDelay_linear {cfg : Config} (h : cfg.shuffleCurve = .linear) (period pct : Nat) :
    shuffleDelay cfg period pct = period * pct / 100 := by
  simp only [shuffleDelay, h]

theorem shuffleDelay_free {cfg : Config} {id : Nat} (h : cfg.shuffleCurve = .free id) {period : Nat}
    (hp : 0 < period) (pct : Nat) :
    shuffleDelay cfg period pct
      = min (period - 1) ((List.range pct).map (Config.shuffleStep id period)).sum := by
  simp only [shuffleDelay, h]
  exact if_neg (by omega)

/-- Growths only add up. -/
theorem sum_map_range_mono (f : Nat → Nat) {p q : Nat} (h : p ≤ q) :
    ((List.range p).map f).sum ≤ ((List.range q).map f).sum := by
  obtain ⟨d, rfl⟩ := Nat.exists_eq_add_of_le h
  rw [List.range_add, List.map_append, List.sum_append]
  exact Nat.le_add_right _ _

/-- Settles O47, by the curve: the linear one below 100 percent, and a free one, a sum of growths held
below the period. -/
theorem shuffleDelayLaws : Obligations.ShuffleDelayLaws := by
  intro cfg period p q hlegal hperiod hq
  cases hcurve : cfg.shuffleCurve with
  | linear =>
    simp only [shuffleDelay_linear hcurve]
    have hpercent : q < 100 := by have := (Config.legal_elim hlegal).percent.1; omega
    refine ⟨by rw [Nat.mul_zero, Nat.zero_div], ?_, fun hpq => ?_⟩
    · rw [Nat.div_lt_iff_lt_mul (by decide)]
      exact Nat.mul_lt_mul_of_pos_left hpercent hperiod
    · exact Nat.div_le_div_right (Nat.mul_le_mul_left period hpq)
  | free id =>
    simp only [shuffleDelay_free hcurve hperiod]
    refine ⟨Nat.min_zero _, by omega, fun hpq => ?_⟩
    have := sum_map_range_mono (Config.shuffleStep id period) hpq
    omega

/-! ### A free-running beat -/

theorem satSucc_eq (v : BitVec 32) : satSucc v = if v = 0xFFFFFFFF#32 then v else v + 1 := by
  unfold satSucc
  split
  · exact Eq.symm ‹v = allOnes›
  · rfl

theorem satSucc_ofNat {n : Nat} (h : n + 1 < 2 ^ 32) :
    satSucc (BitVec.ofNat 32 n) = BitVec.ofNat 32 (n + 1) := by
  apply BitVec.eq_of_toNat_eq
  rw [satSucc_toNat, BitVec.toNat_ofNat, BitVec.toNat_ofNat]
  omega

/-- The beat ends (44_clock_engine.md R278). -/
theorem advance_of_le {k : ClockState} (hlock : k.syncSeen = false)
    (h : k.beatTicks.toNat ≤ (satSucc k.beatPos).toNat) :
    k.advance = { k with beatPos := 0, beatCount := k.beatCount + 1 } := by
  simp only [ClockState.advance, hlock, h, decide_true, Bool.not_false, Bool.and_self, if_true]

/-- The beat goes on, as it always does under a sync lock (R278). -/
theorem advance_of_lt {k : ClockState}
    (h : k.syncSeen = true ∨ (satSucc k.beatPos).toNat < k.beatTicks.toNat) :
    k.advance = { k with beatPos := satSucc k.beatPos } := by
  refine if_neg fun hends => ?_
  rw [Bool.and_eq_true, Bool.not_eq_true', decide_eq_true_eq] at hends
  rcases h with hlock | hlt
  · rw [hends.1] at hlock
    cases hlock
  · omega

/-- `Advance()` does not see `since_sync`. -/
theorem advance_sinceSync (k : ClockState) (v : BitVec 32) :
    ({ k with sinceSync := v }).advance = { k.advance with sinceSync := v } := by
  unfold ClockState.advance
  dsimp only
  split <;> rfl

/-- An unlocked engine at position `n` of its beat goes on to `n + 1`, or to the next beat. -/
theorem advance_at {k : ClockState} (hlock : k.syncSeen = false) {n : Nat}
    (hn : n < k.beatTicks.toNat) :
    ({ k with beatPos := BitVec.ofNat 32 n }).advance =
      if n + 1 < k.beatTicks.toNat then { k with beatPos := BitVec.ofNat 32 (n + 1) }
      else { k with beatPos := 0, beatCount := k.beatCount + 1 } := by
  have hbeat := k.beatTicks.isLt
  have hnext : satSucc (BitVec.ofNat 32 n) = BitVec.ofNat 32 (n + 1) := satSucc_ofNat (by omega)
  have hpos : (satSucc (BitVec.ofNat 32 n)).toNat = n + 1 := by
    rw [hnext, BitVec.toNat_ofNat]; omega
  split
  · rename_i hlt
    rw [advance_of_lt (.inr (hpos.trans_lt hlt)), hnext]
  · rename_i hge
    exact advance_of_le hlock ((Nat.not_lt.mp hge).trans_eq hpos.symm)

theorem afterAdvances_of_lt {k : ClockState} (hlock : k.syncSeen = false) (hpos : k.beatPos = 0)
    {n : Nat} (hn : n < k.beatTicks.toNat) :
    afterAdvances k n = { k with beatPos := BitVec.ofNat 32 n } := by
  induction n with
  | zero => exact congrArg (fun p => { k with beatPos := p }) hpos
  | succ n ih => rw [afterAdvances, ih (by omega), advance_at hlock (by omega), if_pos hn]

theorem afterAdvances_beat {k : ClockState} (hlock : k.syncSeen = false) (hpos : k.beatPos = 0)
    (hbeat : 0 < k.beatTicks.toNat) :
    afterAdvances k k.beatTicks.toNat = { k with beatCount := k.beatCount + 1 } := by
  obtain ⟨n, hn⟩ := Nat.exists_eq_succ_of_ne_zero hbeat.ne'
  rw [hn, afterAdvances, afterAdvances_of_lt hlock hpos (by omega), advance_at hlock (by omega),
    if_neg (by omega), hpos]

/-- A clock step's work while RUNNING, of an engine `k` and lanes that `f` has prepared (R270). -/
def State.beatUnder (s : State) (k : ClockState) (f : OutChannel → OutChannel) : State :=
  { s with
    outs := mapLive s.cfg.nout (fun c => channelPulse s.cfg k (f c)) s.outs, clk := k.advance
    midi := { s.midi with
      tx := s.midi.tx ++ if midiClockDue s.cfg k then [clockMsg] else [] } }

theorem beatUnder_get (s : State) (k : ClockState) (f : OutChannel → OutChannel) (ch : Nat)
    (h : ch < noutMax) :
    (s.beatUnder k f).outs[ch] =
      if ch < s.cfg.nout then channelPulse s.cfg k (f s.outs[ch]) else s.outs[ch] :=
  mapLive_get s.cfg.nout (fun c => channelPulse s.cfg k (f c)) s.outs ch h

/-- `since_sync` counted, at the top of a clock step while RUNNING (R270). -/
def ClockState.counted (k : ClockState) : ClockState := { k with sinceSync := satSucc k.sinceSync }

/-- The clock step of a running engine without a sync pulse. -/
theorem clockStep_free {s : State} (hrun : s.clk.state = .running) (hpulse : s.noPulse) :
    s.clockStep = s.beatUnder s.clk.counted id := by
  have hstep : s.clockStep = s.countSinceSync.runBeat := by
    simpa [hrun, noPulse_clocked hpulse] using clockStep_cases s
  rw [hstep, countSinceSync_of_running s hrun, runBeat_eq]
  rfl

/-- Without a sync pulse only a running engine does anything (R261, R270). -/
theorem clockStep_idle {s : State} (hrun : s.clk.state ≠ .running) (hpulse : s.noPulse) :
    s.clockStep = s := by
  rcases clockStep_cases s with ⟨-, e⟩ | ⟨-, -, e⟩ | ⟨-, k, -⟩ | ⟨k, -⟩ | ⟨k, -⟩
  · exact e
  · exact e
  · rw [noPulse_clocked hpulse] at k; cases k
  · exact absurd k hrun
  · exact absurd k hrun

/-- Settles O48: the two cases of `Advance()`, an induction over the beat's positions, and the clock
step without a pulse. -/
theorem beatLastsBeatTicks : Obligations.BeatLastsBeatTicks := by
  refine ⟨fun k => ?_, fun k n hlock hpos hbeat => ?_, fun s hpulse => ?_⟩
  · rw [← satSucc_eq]
    exact ⟨fun ⟨hlock, hle⟩ => advance_of_le hlock hle, advance_of_lt⟩
  · exact ⟨afterAdvances_of_lt hlock hpos, afterAdvances_beat hlock hpos hbeat⟩
  · rw [← satSucc_eq]
    refine ⟨fun hrun => clockStep_idle hrun hpulse, fun hrun => ?_⟩
    rw [clockStep_free hrun hpulse]
    exact ⟨rfl, beatUnder_get s s.clk.counted id⟩

/-! ### The MIDI clock of a beat -/

theorem midiClockDue_iff (cfg : Config) (k : ClockState) : midiClockDue cfg k = true ↔
    k.emitClk = true ∧ ∃ j, j < cfg.midiPpqn
      ∧ j * k.beatTicks.toNat / cfg.midiPpqn = k.beatPos.toNat := by
  rw [midiClockDue, Bool.and_eq_true, any_pulsePosition_iff]

/-- Whether a Clock message is due at position `p` of the engine's beat (44_clock_engine.md R279). -/
def clockDueAt (cfg : Config) (k : ClockState) (p : Nat) : Bool :=
  midiClockDue cfg { k with beatPos := BitVec.ofNat 32 p }

theorem clockDueAt_iff {cfg : Config} {k : ClockState} {p : Nat} (hp : p < k.beatTicks.toNat) :
    clockDueAt cfg k p = true ↔ k.emitClk = true ∧ ∃ j, j < cfg.midiPpqn
      ∧ j * k.beatTicks.toNat / cfg.midiPpqn = p := by
  have hbeat := k.beatTicks.isLt
  have hpos : (BitVec.ofNat 32 p).toNat = p := by rw [BitVec.toNat_ofNat]; omega
  rw [clockDueAt, midiClockDue_iff, hpos]

theorem countP_clockDueAt {cfg : Config} {k : ClockState} (hppqn : 0 < cfg.midiPpqn)
    (hbeat : cfg.midiPpqn ≤ k.beatTicks.toNat) :
    (List.range k.beatTicks.toNat).countP (clockDueAt cfg k)
      = if k.emitClk then cfg.midiPpqn else 0 := by
  split
  · rename_i hemit
    refine countP_pulsePositions hppqn hbeat fun p hp => ?_
    rw [clockDueAt_iff hp, and_iff_right hemit]
  · rename_i hemit
    refine List.countP_eq_zero.mpr fun p hp hdue => ?_
    exact hemit ((clockDueAt_iff (List.mem_range.mp hp)).mp hdue).1

/-- What `n` clock steps of a free-running engine leave, within its beat: the engine advanced, and a
Clock message for every position passed at which one is due. -/
structure FreeRun (s : State) (n : Nat) (t : State) : Prop where
  cfg : t.cfg = s.cfg
  ins : t.ins = s.ins
  clk : ∃ since, t.clk = { afterAdvances s.clk n with sinceSync := since }
  tx : t.midi.tx = s.midi.tx
    ++ List.replicate ((List.range n).countP (clockDueAt s.cfg s.clk)) clockMsg

theorem FreeRun.start (s : State) : FreeRun s 0 s :=
  ⟨rfl, rfl, ⟨s.clk.sinceSync, rfl⟩, (List.append_nil _).symm⟩

/-- One more step within the beat. -/
theorem FreeRun.step {s t : State} {n : Nat} (h : FreeRun s n t) (hrun : s.clk.state = .running)
    (hpulse : s.noPulse) (hlock : s.clk.syncSeen = false) (hpos : s.clk.beatPos = 0)
    (hn : n < s.clk.beatTicks.toNat) : FreeRun s (n + 1) t.clockStep := by
  obtain ⟨since, hclk⟩ := h.clk
  have hnow := hclk
  rw [afterAdvances_of_lt hlock hpos hn] at hnow
  have hrun' : t.clk.state = .running := by rw [hnow]; exact hrun
  have hpulse' : t.noPulse := by unfold State.noPulse; rw [h.cfg, h.ins, hnow]; exact hpulse
  have hdue : midiClockDue t.cfg t.clk.counted = clockDueAt s.cfg s.clk n := by
    rw [h.cfg, hnow]; rfl
  rw [clockStep_free hrun' hpulse']
  refine ⟨h.cfg, h.ins, ⟨satSucc since, ?_⟩, ?_⟩
  · show t.clk.counted.advance = _
    rw [ClockState.counted, advance_sinceSync, hclk, advance_sinceSync, afterAdvances]
  · show t.midi.tx ++ (if midiClockDue t.cfg t.clk.counted then [clockMsg] else []) = _
    rw [h.tx, hdue, List.range_succ, List.countP_append, List.countP_singleton,
      List.replicate_add, ← List.append_assoc]
    split <;> rfl

theorem freeRun_afterClockSteps {s : State} (hrun : s.clk.state = .running) (hpulse : s.noPulse)
    (hlock : s.clk.syncSeen = false) (hpos : s.clk.beatPos = 0) {n : Nat}
    (hn : n ≤ s.clk.beatTicks.toNat) : FreeRun s n (afterClockSteps s n) := by
  induction n with
  | zero => exact .start s
  | succ n ih => exact (ih (by omega)).step hrun hpulse hlock hpos hn

/-- Settles O49: the positions of a beat are counted as a schedule's, and a beat's clock steps pass each
of them once. -/
theorem midiClocksPerBeat : Obligations.MidiClocksPerBeat := by
  refine ⟨midiClockDue_iff, fun cfg k => countP_clockDueAt, ?_⟩
  intro s hrun hpulse hlock hpos hppqn hbeat
  rw [(freeRun_afterClockSteps hrun hpulse hlock hpos le_rfl).tx, countP_clockDueAt hppqn hbeat]

/-! ### External sync -/

/-- Everything a sync pulse does to the engine's registers (44_clock_engine.md R276). -/
theorem syncPulse_eq (k : ClockState) (cfg : Config) :
    k.syncPulse cfg = { k with
      sinceSync := 0, syncSeen := true
      syncCnt := BitVec.ofNat 5 ((k.syncCnt.toNat + 1) % k.syncPpqn.toNat)
      beatPos := if k.syncCnt = 0 then 0 else k.beatPos
      beatCount := if k.syncCnt = 0 ∧ k.beatPos ≠ 0 then k.beatCount + 1 else k.beatCount
      beatTicks := if k.syncSeen then (k.notePulse.reconcile cfg).beatTicks else k.beatTicks
      bpm := if k.syncSeen then (k.notePulse.reconcile cfg).bpm else k.bpm
      pulses := k.notePulse.pulses } := by
  have hzero : (if k.beatPos ≠ 0 then 0 else k.beatPos) = 0 := by
    rw [ite_not]; exact ite_eq_right_iff.mpr id
  have hpos : (if k.syncCnt = 0 then 0 else k.beatPos)
      = if k.syncCnt = 0 ∧ k.beatPos ≠ 0 then 0 else k.beatPos := by rw [ite_and, hzero]
  rw [hpos]
  unfold ClockState.syncPulse ClockState.reconcile ClockState.setMeasured ClockState.notePulse
  dsimp only
  split <;> split <;> rfl

/-- The pulse that starts a paused engine is pulse 0 of beat 0, and measures nothing (R276, R277). -/
theorem syncPulse_started (k : ClockState) (cfg : Config) :
    ({ k with state := .running }).started.syncPulse cfg = { k with
      state := .running, beatPos := 0, beatCount := 0, sinceSync := 0, syncSeen := true
      syncCnt := BitVec.ofNat 5 (1 % k.syncPpqn.toNat)
      pulses := { locked := false, since := 0, ppqn := k.syncPpqn } :: k.pulses } := by
  rw [syncPulse_eq]
  rfl

/-- Under the lock of the pulse, `Advance()` ends no beat (R278). -/
theorem syncPulse_advance (k : ClockState) (cfg : Config) :
    (k.syncPulse cfg).advance =
      { k.syncPulse cfg with beatPos := satSucc (k.syncPulse cfg).beatPos } :=
  advance_of_lt (.inl (by rw [syncPulse_engine]))

/-- The clock step in which a sync pulse starts a paused engine (R270, R276). -/
theorem clockStep_pulse_of_paused {s : State} (hpaused : s.clk.state = .paused)
    (hpulse : s.syncClocked = true) :
    s.clockStep = s.beatUnder (({ s.clk with state := .running }).started.syncPulse s.cfg)
      fun c => { c with pulsePar := false, shufCd := 0 } := by
  have hstep : s.clockStep = s.externalSync.runBeat := by
    simpa [hpaused, hpulse] using clockStep_cases s
  have hsync : s.externalSync = { (s.setClkState .running).startActions with
      clk := ({ s.clk with state := .running }).started.syncPulse s.cfg } := by
    simp only [State.externalSync, hpaused, if_true]
    rfl
  rw [hstep, hsync, runBeat_eq, State.beatUnder,
    ← mapLive_mapLive s.cfg.nout (fun c => { c with pulsePar := false, shufCd := 0 })]
  rfl

/-- The clock step under a sync pulse of a running engine (R270, R276). -/
theorem clockStep_pulse_of_running {s : State} (hrun : s.clk.state = .running)
    (hpulse : s.syncClocked = true) :
    s.clockStep = s.beatUnder (s.clk.counted.syncPulse s.cfg) id := by
  have hstep : s.clockStep = s.countSinceSync.externalSync.runBeat := by
    simpa [hrun, hpulse] using clockStep_cases s
  have hsync : s.countSinceSync.externalSync
      = { s with clk := s.clk.counted.syncPulse s.cfg } := by
    have hnot : s.countSinceSync.clk.state ≠ .paused := by
      rw [countSinceSync_state, hrun]; decide
    simp only [State.externalSync, if_neg hnot]
    rw [countSinceSync_of_running s hrun]
    rfl
  rw [hstep, hsync, runBeat_eq]
  rfl

/-- Everything a clock step's work changes, and the lanes it pulses. -/
theorem beatUnder_spec {s t : State} {k : ClockState} {f : OutChannel → OutChannel}
    (ht : t = s.beatUnder k f) :
    t.clk = k.advance
    ∧ t = { s with
        outs := t.outs, clk := t.clk,
        midi := { s.midi with
          tx := s.midi.tx ++ if midiClockDue s.cfg k then [clockMsg] else [] } }
    ∧ ∀ (ch : Nat) (h : ch < noutMax),
        (s.cfg.nout ≤ ch → t.outs[ch] = s.outs[ch])
        ∧ (ch < s.cfg.nout → t.outs[ch] = channelPulse s.cfg k (f s.outs[ch])) := by
  subst ht
  refine ⟨rfl, rfl, fun ch h => ?_⟩
  rw [beatUnder_get]
  exact ⟨fun hn => if_neg (Nat.not_lt.mpr hn), fun hn => if_pos hn⟩

/-- Settles O50: the engine a pulse leaves (`syncPulse_started`, `syncPulse_eq`), and then its beat. -/
theorem externalSyncStartsAndRealigns : Obligations.ExternalSyncStartsAndRealigns := by
  intro s c _ hsrc hc hclocked t next
  have hpulse := syncClocked_of hsrc hc hclocked
  refine ⟨clockStep_of_stopped, fun hpaused => ?_, fun hrun => ?_, fun hne => ?_⟩
  · have hclk : t.clk = (({ s.clk with state := .running }).started.syncPulse s.cfg).advance :=
      congrArg State.clk (clockStep_pulse_of_paused hpaused hpulse)
    rw [hclk, syncPulse_advance, syncPulse_started]
    exact ⟨rfl, rfl, rfl, rfl, rfl, rfl, rfl, rfl⟩
  · have hclk : t.clk = (s.clk.counted.syncPulse s.cfg).advance :=
      congrArg State.clk (clockStep_pulse_of_running hrun hpulse)
    rw [hclk, syncPulse_advance, syncPulse_eq, ← satSucc_eq]
    refine ⟨hrun, rfl, rfl, rfl, fun hzero haway => ⟨?_, if_pos ⟨hzero, haway⟩⟩,
      fun hsame => ⟨if_neg ?_, congrArg satSucc ?_⟩⟩
    · exact congrArg satSucc (if_pos hzero)
    · exact fun ⟨hzero, haway⟩ => hsame.elim (absurd hzero) (absurd · haway)
    · by_cases hzero : s.clk.syncCnt = 0
      · exact (if_pos hzero).trans (hsame.resolve_left (not_not_intro hzero)).symm
      · exact if_neg hzero
  · intro paused locked k
    have hstep : t = s.beatUnder k fun lane =>
        if s.clk.state = .paused then { lane with pulsePar := false, shufCd := 0 } else lane := by
      cases hstate : s.clk.state with
      | stopped => exact absurd hstate hne
      | paused =>
        have hk : k = ({ s.clk with state := .running }).started.syncPulse s.cfg := by
          rw [syncPulse_started]
          simp [k, paused, locked, hstate]
        rw [hk]
        exact clockStep_pulse_of_paused hstate hpulse
      | running =>
        have ht : t = _ := clockStep_pulse_of_running hstate hpulse
        have hk : k = s.clk.counted.syncPulse s.cfg := by
          have hclk : t.clk = (s.clk.counted.syncPulse s.cfg).advance := congrArg State.clk ht
          have hbeat := congrArg ClockState.beatTicks hclk
          have hbpm := congrArg ClockState.bpm hclk
          rw [syncPulse_advance, syncPulse_eq] at hbeat hbpm
          rw [syncPulse_eq]
          cases hlock : s.clk.syncSeen <;>
            simp [k, next, paused, locked, hstate, hbeat, hbpm, hlock, ClockState.notePulse,
              ClockState.counted]
        rw [hk]
        exact ht
    have hspec := beatUnder_spec hstep
    exact hspec

/-- A measured beat and its tempo, in numbers, under legal parameters (44_clock_engine.md R271). -/
theorem setMeasured_toNat (k : ClockState) {cfg : Config} (hc : cfg.Legal) (t : Nat) :
    (k.setMeasured cfg t).beatTicks.toNat = max cfg.btMin (min t cfg.btMax)
    ∧ (k.setMeasured cfg t).bpm.toNat = max cfg.bpmMin
        (min (cfg.ticksPerMin / (k.setMeasured cfg t).beatTicks.toNat) cfg.bpmMax) := by
  obtain ⟨-, ⟨hlow, -⟩, -⟩ := setMeasured_tempo k hc t
  obtain ⟨hmin, hmax⟩ := hc.beat
  obtain ⟨-, -, -, hbpm⟩ := hc.bpm
  have hbt := clampNat_range t (bt_le_of_legal hc)
  have htempo := clampNat_range (cfg.ticksPerMin / (k.setMeasured cfg t).beatTicks.toNat)
    (bpm_le_of_legal hc)
  rw [← clampNat_eq _ (bt_le_of_legal hc), ← clampNat_eq _ (bpm_le_of_legal hc)]
  refine ⟨fitNat_toNat (hbt.2.trans_lt hmax), ?_⟩
  rw [setMeasured_bpm, quotient_eq _ (by omega), fitNat_toNat (by omega)]

/-- A running engine under the sync lock measures the beat at a pulse (R276, R277). -/
theorem clockStep_measures {s : State} (hrun : s.clk.state = .running)
    (hlock : s.clk.syncSeen = true) (hpulse : s.syncClocked = true) {k : ClockState}
    (hk : s.clk.counted.notePulse = k) :
    s.clockStep.clk.beatTicks = (k.setMeasured s.cfg (measuredBeat s.cfg k)).beatTicks
    ∧ s.clockStep.clk.bpm = (k.setMeasured s.cfg (measuredBeat s.cfg k)).bpm := by
  subst hk
  have hclk : s.clockStep.clk = (s.clk.counted.syncPulse s.cfg).advance :=
    congrArg State.clk (clockStep_pulse_of_running hrun hpulse)
  rw [hclk, syncPulse_advance, syncPulse_eq]
  exact ⟨if_pos hlock, if_pos hlock⟩

/-- Settles O51: the pulse sets the tempo of the measured beat, which is the spacing under rule R277
and is clamped under any rule. -/
theorem reconcileMeasuresTheBeat : Obligations.ReconcileMeasuresTheBeat := by
  intro s c hlegal hsrc hc hclocked hrun hlock t since
  have hcfg := Config.legal_elim hlegal
  obtain ⟨hbeat, hbpm⟩ := clockStep_measures hrun hlock (syncClocked_of hsrc hc hclocked) rfl
  obtain ⟨hticks, htempo⟩ := setMeasured_toNat s.clk.counted.notePulse hcfg
    (measuredBeat s.cfg s.clk.counted.notePulse)
  obtain ⟨-, ⟨hlow, hhigh⟩, -⟩ := setMeasured_tempo s.clk.counted.notePulse hcfg
    (measuredBeat s.cfg s.clk.counted.notePulse)
  rw [← hbeat] at hticks htempo hlow hhigh
  rw [← hbpm] at htempo
  refine ⟨fun hrule => ?_, hlow, hhigh, htempo⟩
  have hmeasured : measuredBeat s.cfg s.clk.counted.notePulse
      = (satSucc s.clk.sinceSync).toNat * s.clk.syncPpqn.toNat := by
    simp only [measuredBeat, hrule]
    rfl
  rw [hmeasured, satSucc_toNat] at hticks
  exact hticks

/-! ### Who changes clk_state -/

theorem syncClocked_elim {s : State} (h : s.syncClocked = true) :
    s.clk.syncSrc.toNat < s.cfg.nin
    ∧ ∃ c, s.ins[s.clk.syncSrc.toNat]? = some c ∧ c.clocked = true := by
  unfold State.syncClocked State.inLaneAt at h
  split at h
  · rename_i c hc
    split at hc
    · exact ⟨‹_›, c, hc, h⟩
    · cases hc
  · cases h

/-- A clock step changes `clk_state` only where a sync pulse starts a paused engine (R261, R270). -/
theorem clockStep_state_cases (s : State) :
    s.clockStep.clk.state = s.clk.state
    ∨ (s.clk.state = .paused ∧ s.clockStep.clk.state = .running ∧ s.syncClocked = true) := by
  rcases clockStep_eq_or_running s with hsame | hrun
  · exact .inl (congrArg (·.clk.state) hsame)
  rcases clockStep_cases s with ⟨-, e⟩ | ⟨-, -, e⟩ | ⟨hp, hpulse, -⟩ | ⟨hr, -, -⟩ | ⟨hr, -, -⟩
  · exact .inl (congrArg (·.clk.state) e)
  · exact .inl (congrArg (·.clk.state) e)
  · exact .inr ⟨hp, hrun, hpulse⟩
  · exact .inl (hrun.trans hr.symm)
  · exact .inl (hrun.trans hr.symm)

/-- No command but LOAD and `PLAYSTOP` has an effect on `clk_state` (R261). -/
theorem Effect.clkState_eq {s t : State} {i : Instr} (h : Effect s i t) (hload : i ≠ .load)
    (hplay : i ≠ .playstop) : t.clk.state = s.clk.state := by
  cases h with
  | load => exact absurd rfl hload
  | playstop => exact absurd rfl hplay
  | send => rw [respond_clk, sendTick_frame]
  | midi | query | out | startlag => rfl
  | skip => rw [respond_clk, afterDraw_eq]
  | pulse => rw [respond_clk, setOut_clk, afterDraw_eq]
  | tap => exact tapPress_state s.clk s.cfg s.tickCount
  | cfgw addr val r => exact writeReg_state r val s

/-- A LOAD that drains nothing changes `clk_state` in its clock step only. -/
theorem loadTick_state_cases {s : State} (hrx : s.midi.rx = []) :
    s.loadTick.clk.state = s.clk.state
    ∨ (s.clk.state = .paused ∧ s.loadTick.clk.state = .running
        ∧ s.conditioned.syncClocked = true) := by
  obtain ⟨d, -, -, hstep, hempty⟩ := loadTick_split s
  obtain rfl := hempty hrx
  rw [hstep, ← conditioned_clk]
  exact clockStep_state_cases s.conditioned

/-- Settles O52, by the effects of a command; LOAD's by its clock step. -/
theorem clockStateChangesOnlyByItsEvents : Obligations.ClockStateChangesOnlyByItsEvents := by
  refine ⟨fun i s t h hload hplay => ?_, fun s t h hrx hmoved => ?_⟩
  · rcases exec_cases h with ⟨code, -, rfl⟩ | heffect
    · rfl
    · exact heffect.clkState_eq hload hplay
  · rcases execLoad_cases h with ⟨-, rfl⟩ | ⟨-, rfl⟩
    · rw [respond_clk] at hmoved
      obtain ⟨hpaused, hrun, hpulse⟩ := (loadTick_state_cases hrx).resolve_left hmoved
      have hsrc := syncClocked_elim hpulse
      rw [conditioned_clk, conditioned_cfg, ← loadTick_ins] at hsrc
      rw [respond_clk, respond_ins]
      exact ⟨hpaused, hrun, hsrc⟩
    · exact absurd rfl hmoved

end Sys2Proof.Machine
end

section
/-! PROOFS. The statements of 45_config.md. The register map is inverted once (`regAt_eq_some_iff`): an
address is implemented if and only if it is that of a register the block has. What `CFGW` and `CFGR` do is
then said of the register (`exec_cfgw_register`, `exec_cfgr_register`), and a legal value is the
concatenation of its register's fields (`readReg_writeReg`). -/

namespace Sys2Proof.Machine

/-! ### The register map -/

/-- The registers a block of `nout` outputs has: a per-channel register needs its output
(10_state.md R61, 45_config.md R302). -/
def Reg.Implemented (nout : Nat) (r : Reg) : Prop := ∀ ch, r.lane? = some ch → ch.toNat < nout

theorem Reg.implemented_of_global {nout : Nat} {r : Reg} (h : r.lane? = none) :
    r.Implemented nout := fun ch hch => by
  rw [h] at hch
  cases hch

theorem Reg.implemented_of_lane {nout : Nat} {r : Reg} {ch : BitVec 3} (h : r.lane? = some ch)
    (hn : ch.toNat < nout) : r.Implemented nout := fun b hb => by
  rw [h] at hb
  exact Option.some.inj hb ▸ hn

theorem regAt_addr {nout : Nat} {r : Reg} (h : r.Implemented nout) :
    regAt nout r.addr = some r := by
  cases r with
  | mapa ch | mapb ch | mult ch | mo ch =>
    simp only [regAt, Reg.addr, BitVec.extractLsb'_append_eq_left,
      BitVec.extractLsb'_append_eq_right]
    exact if_pos (h ch rfl)
  | _ => rfl

/-- The register found at an address has that address: its bank is the high field, and the low field
its channel or its place in the bank. -/
theorem addr_of_regAt {nout : Nat} {addr : BitVec 8} {r : Reg} (h : regAt nout addr = some r) :
    r.addr = addr := by
  have hfields : addr.extractLsb' 3 5 ++ addr.extractLsb' 0 3 = addr :=
    BitVec.extractLsb'_append_extractLsb' (w := 5) (len := 3)
  rw [← hfields]
  unfold regAt at h
  dsimp only at h
  split at h
  case h_2 hbank | h_3 hbank | h_4 hbank | h_5 hbank =>
    obtain ⟨-, rfl⟩ := bankReg_some h
    rw [hbank]
    rfl
  case h_8 => cases h
  case h_1 hbank | h_6 hbank | h_7 hbank =>
    rw [hbank]
    generalize addr.extractLsb' 0 3 = ch at h ⊢
    split at h <;> cases h <;> decide +revert

/-- The register map, read from the registers (R61 to R63, R302). -/
theorem regAt_eq_some_iff {nout : Nat} {addr : BitVec 8} {r : Reg} :
    regAt nout addr = some r ↔ r.addr = addr ∧ r.Implemented nout :=
  ⟨fun h => ⟨addr_of_regAt h, fun _ hch => regAt_lane h hch⟩,
    fun ⟨haddr, himpl⟩ => haddr ▸ regAt_addr himpl⟩

/-- No two registers have one address: the largest block has them all. -/
theorem Reg.addr_injective {q r : Reg} (h : q.addr = r.addr) : q = r := by
  have hall (r : Reg) : r.Implemented noutMax := fun ch _ => ch.isLt
  exact Option.some.inj (by rw [← regAt_addr (hall q), h, regAt_addr (hall r)])

theorem mapa_addr_toNat (ch : BitVec 3) : (Reg.mapa ch).addr.toNat = 0x10 + ch.toNat :=
  toNat_append_add 2#5 ch

theorem mapb_addr_toNat (ch : BitVec 3) : (Reg.mapb ch).addr.toNat = 0x18 + ch.toNat :=
  toNat_append_add 3#5 ch

theorem mult_addr_toNat (ch : BitVec 3) : (Reg.mult ch).addr.toNat = 0x20 + ch.toNat :=
  toNat_append_add 4#5 ch

theorem mo_addr_toNat (ch : BitVec 3) : (Reg.mo ch).addr.toNat = 0x28 + ch.toNat :=
  toNat_append_add 5#5 ch

/-- A register is at the address with its number. -/
theorem Reg.addr_eq_ofNat {r : Reg} {n : Nat} (h : r.addr.toNat = n) : r.addr = BitVec.ofNat 8 n := by
  rw [← h, BitVec.ofNat_toNat, BitVec.setWidth_eq]

/-- Where the configuration registers are (R62). -/
theorem Reg.addr_of_writable {nout : Nat} {r : Reg} (hw : r.writable = true)
    (himpl : r.Implemented nout) :
    r.addr.toNat ≤ 0x07 ∨ (0x10 ≤ r.addr.toNat ∧ r.addr.toNat < 0x10 + nout)
      ∨ (0x18 ≤ r.addr.toNat ∧ r.addr.toNat < 0x18 + nout)
      ∨ (0x20 ≤ r.addr.toNat ∧ r.addr.toNat < 0x20 + nout)
      ∨ (0x28 ≤ r.addr.toNat ∧ r.addr.toNat < 0x28 + nout) := by
  cases r with
  | mapa ch | mapb ch | mult ch | mo ch =>
    have hch := himpl ch rfl
    simp only [mapa_addr_toNat, mapb_addr_toNat, mult_addr_toNat, mo_addr_toNat]
    omega
  | ctrl | clkDiv | clkSkip | bpm | shuffle | syncPpqn | syncSrc | moHold => exact .inl (by decide)
  | _ => cases hw

/-- Where the status registers are (R63). -/
theorem Reg.addr_of_not_writable {r : Reg} (hw : r.writable = false) :
    0x80 ≤ r.addr.toNat ∧ r.addr.toNat ≤ 0x89 := by
  cases r with
  | status | tickLo | tickHi | rngDraws | sustain | semitone | beatTicksLo | beatTicksHi | rxqLevel
  | ppqnCnt => decide
  | _ => cases hw

/-! ### What the two commands do with a register -/

theorem exec_cfgw (addr : BitVec 8) (val : BitVec 16) (s : State) :
    exec (.cfgw addr val) s = execCfgw addr val s := rfl

theorem exec_cfgr (addr : BitVec 8) (s : State) : exec (.cfgr addr) s = execCfgr addr s := rfl

section
variable {addr : BitVec 8} {s : State}

theorem exec_cfgw_of_none {val : BitVec 16} (h : (regAt s.cfg.nout addr).filter Reg.writable = none) :
    exec (.cfgw addr val) s = faultOutcome (.cfgw addr val) s .badRegister := by
  simp only [exec_cfgw, execCfgw, h]
  rfl

theorem exec_cfgw_register {val : BitVec 16} {r : Reg} (hr : regAt s.cfg.nout addr = some r)
    (hw : r.writable = true) :
    exec (.cfgw addr val) s = if legalValue s.cfg r val then .next ((writeReg r val s).respond 0)
      else faultOutcome (.cfgw addr val) s .badValue := by
  simp only [exec_cfgw, execCfgw, hr, Option.filter_some, hw, if_true]
  rfl

theorem exec_cfgr_of_none (h : regAt s.cfg.nout addr = none) :
    exec (.cfgr addr) s = faultOutcome (.cfgr addr) s .badRegister := by
  simp only [exec_cfgr, execCfgr, h]
  rfl

theorem exec_cfgr_register {r : Reg} (hr : regAt s.cfg.nout addr = some r) :
    exec (.cfgr addr) s = .next (s.respond (regWord (readReg r s))) := by
  simp only [exec_cfgr, execCfgr, hr]

end

/-- Settles O13: a register found at the address would have it in the ranges of its kind. -/
theorem unimplementedRegisterRaisesBadRegister :
    Obligations.UnimplementedRegisterRaisesBadRegister := by
  intro addr val s _ a n config
  have hconfig {r : Reg} (hr : regAt s.cfg.nout addr = some r) (hw : r.writable = true) : config := by
    obtain ⟨rfl, himpl⟩ := regAt_eq_some_iff.mp hr
    exact Reg.addr_of_writable hw himpl
  have hstatus {r : Reg} (hr : regAt s.cfg.nout addr = some r) (hw : r.writable = false) :
      0x80 ≤ a ∧ a ≤ 0x89 := by
    obtain ⟨rfl, -⟩ := regAt_eq_some_iff.mp hr
    exact Reg.addr_of_not_writable hw
  refine ⟨fun hno => exec_cfgw_of_none ?_, fun hno hnostatus => exec_cfgr_of_none ?_⟩
  · exact Option.filter_eq_none_iff.mpr fun r hr hw => hno (hconfig hr hw)
  · refine Option.eq_none_iff_forall_ne_some.mpr fun r hr => ?_
    cases hw : r.writable with
    | true => exact hno (hconfig hr hw)
    | false => exact hnostatus (hstatus hr hw)

/-! ### Legal values -/

/-- The complete test of a register's value, from what makes a value legal for it (R303). -/
theorem cfgw_test {addr : BitVec 8} {val : BitVec 16} {s : State} {r : Reg} {legal : Prop}
    (haddr : r.addr = addr) (himpl : r.Implemented s.cfg.nout) (hw : r.writable = true)
    (hlegal : legalValue s.cfg r val = true ↔ legal) :
    (legal → ∃ t, exec (.cfgw addr val) s = .next t ∧ t.fault = s.fault ∧ t.resp = 0)
    ∧ (¬ legal → exec (.cfgw addr val) s = faultOutcome (.cfgw addr val) s .badValue) := by
  have hexec := exec_cfgw_register (val := val) (regAt_eq_some_iff.mpr ⟨haddr, himpl⟩) hw
  have hfault : (writeReg r val s).fault = s.fault := by rw [writeReg_frame]
  rw [hexec, ← hlegal]
  exact ⟨fun h => ⟨_, if_pos h, hfault, rfl⟩, fun h => if_neg h⟩

theorem legalValue_bpm_iff (cfg : Config) (val : BitVec 16) : legalValue cfg .bpm val = true
    ↔ cfg.bpmMin ≤ val.toNat ∧ val.toNat ≤ cfg.bpmMax ∧ val.toNat ≤ 511 := by
  simp only [legalValue, decide_eq_true_eq]
  omega

theorem legalValue_shuffle_iff (cfg : Config) (val : BitVec 16) :
    legalValue cfg .shuffle val = true ↔ val.toNat ≤ cfg.shuffleMax ∧ val.toNat ≤ 127 := by
  simp only [legalValue, decide_eq_true_eq]
  omega

theorem legalValue_syncSrc_iff (cfg : Config) (val : BitVec 16) :
    legalValue cfg .syncSrc val = true
      ↔ (val.toNat < cfg.nin ∧ val.toNat ≤ 7) ∨ val.toNat = 7 := by
  simp only [legalValue, decide_eq_true_eq]
  omega

theorem legalValue_mapa_iff (cfg : Config) (ch : BitVec 3) (val : BitVec 16) :
    legalValue cfg (.mapa ch) val = true
      ↔ val &&& ~~~0x1F0F#16 = 0 ∧ val.toNat / 256 % 32 ≤ 17 := by
  simp only [legalValue, Bool.and_eq_true, beq_iff_eq, decide_eq_true_eq, extract_toNat]
  rfl

theorem legalValue_mo_iff (cfg : Config) (ch : BitVec 3) (val : BitVec 16) :
    legalValue cfg (.mo ch) val = true
      ↔ val &&& ~~~0x030F#16 = 0 ∧ val.toNat / 256 % 4 ≤ 2 := by
  simp only [legalValue, Bool.and_eq_true, beq_iff_eq, decide_eq_true_eq, extract_toNat]
  rfl

/-- The addresses of the four banks, as their first address and the channel. -/
theorem bank_addr_eq_add : ∀ ch : BitVec 3,
    (Reg.mapa ch).addr = 0x10 + ch.setWidth 8 ∧ (Reg.mapb ch).addr = 0x18 + ch.setWidth 8
    ∧ (Reg.mult ch).addr = 0x20 + ch.setWidth 8 ∧ (Reg.mo ch).addr = 0x28 + ch.setWidth 8 := by
  decide

/-- Settles O14, register by register. -/
theorem illegalValueRaisesBadValue : Obligations.IllegalValueRaisesBadValue := by
  intro val s v test
  have hglobal {addr : BitVec 8} {legal : Prop} (r : Reg) (haddr : r.addr = addr)
      (hlane : r.lane? = none) (hw : r.writable = true)
      (hlegal : legalValue s.cfg r val = true ↔ legal) : test addr legal :=
    cfgw_test haddr (Reg.implemented_of_global hlane) hw hlegal
  refine ⟨hglobal .ctrl rfl rfl rfl decide_eq_true_iff, hglobal .clkDiv rfl rfl rfl decide_eq_true_iff,
    hglobal .clkSkip rfl rfl rfl decide_eq_true_iff,
    hglobal .bpm rfl rfl rfl (legalValue_bpm_iff s.cfg val),
    hglobal .shuffle rfl rfl rfl (legalValue_shuffle_iff s.cfg val),
    hglobal .syncPpqn rfl rfl rfl decide_eq_true_iff,
    hglobal .syncSrc rfl rfl rfl (legalValue_syncSrc_iff s.cfg val),
    hglobal .moHold rfl rfl rfl (iff_of_true rfl trivial), fun ch hch => ?_⟩
  obtain ⟨hmapa, hmapb, hmult, hmo⟩ := bank_addr_eq_add ch
  exact ⟨cfgw_test hmapa (Reg.implemented_of_lane rfl hch) rfl (legalValue_mapa_iff s.cfg ch val),
    cfgw_test hmapb (Reg.implemented_of_lane rfl hch) rfl decide_eq_true_iff,
    cfgw_test hmult (Reg.implemented_of_lane rfl hch) rfl decide_eq_true_iff,
    cfgw_test hmo (Reg.implemented_of_lane rfl hch) rfl (legalValue_mo_iff s.cfg ch val)⟩

/-! ### A register's fields -/

theorem zero_append_toNat {n : Nat} (k : Nat) (x : BitVec n) : (0#k ++ x).toNat = x.toNat := by
  rw [toNat_append_add, BitVec.toNat_ofNat, Nat.zero_mod, Nat.zero_mul, Nat.zero_add]

/-- A value is its low field, if it fits there. -/
theorem zero_append_extract {k n : Nat} {val : BitVec (k + n)} (h : val.toNat < 2 ^ n) :
    0#k ++ val.extractLsb' 0 n = val := by
  apply BitVec.eq_of_toNat_eq
  rw [zero_append_toNat, extract_toNat, pow_zero, Nat.div_one, Nat.mod_eq_of_lt h]

theorem ofBool_getLsbD {n : Nat} (w : BitVec n) (k : Nat) :
    BitVec.ofBool (w.getLsbD k) = w.extractLsb' k 1 := by
  apply BitVec.eq_of_toNat_eq
  rw [BitVec.toNat_ofBool, extract_toNat, pow_one]
  exact Nat.toNat_testBit w.toNat k

/-- A field inside a mask that clears the value is zero. -/
theorem extract_eq_zero_of_and {n : Nat} {val m : BitVec n} (h : val &&& m = 0#n) (lo len : Nat)
    (hm : m.extractLsb' lo len = BitVec.allOnes len) : val.extractLsb' lo len = 0#len := by
  have hfield : val.extractLsb' lo len &&& m.extractLsb' lo len = 0#len := by
    rw [← BitVec.extractLsb'_and, h, BitVec.extractLsb'_zero]
  rwa [hm, BitVec.and_allOnes] at hfield

/-- A value of MAPA is its function number and its MIDI channel (10_state.md R62). -/
theorem mapa_fields {val : BitVec 16} (h : val &&& ~~~0x1F0F#16 = 0) :
    0#3 ++ val.extractLsb' 8 5 ++ 0#4 ++ val.extractLsb' 0 4 = val := by
  have hhigh := congrArg BitVec.toNat (extract_eq_zero_of_and h 13 3 (by decide))
  have hmid := congrArg BitVec.toNat (extract_eq_zero_of_and h 4 4 (by decide))
  apply BitVec.eq_of_toNat_eq
  refine (toNat_append_add (0#3 ++ val.extractLsb' 8 5 ++ 0#4) _).trans ?_
  rw [toNat_append_add, zero_append_toNat]
  simp only [extract_toNat, BitVec.toNat_ofNat] at hhigh hmid ⊢
  omega

/-- A value of MO is its role number and its MIDI channel (R62). -/
theorem mo_fields {val : BitVec 16} (h : val &&& ~~~0x030F#16 = 0) :
    0#6 ++ val.extractLsb' 8 2 ++ 0#4 ++ val.extractLsb' 0 4 = val := by
  have hhigh := congrArg BitVec.toNat (extract_eq_zero_of_and h 10 6 (by decide))
  have hmid := congrArg BitVec.toNat (extract_eq_zero_of_and h 4 4 (by decide))
  apply BitVec.eq_of_toNat_eq
  refine (toNat_append_add (0#6 ++ val.extractLsb' 8 2 ++ 0#4) _).trans ?_
  rw [toNat_append_add, zero_append_toNat]
  simp only [extract_toNat, BitVec.toNat_ofNat] at hhigh hmid ⊢
  omega

/-- A value of MAPB is its learn bit and its controller number (R62). -/
theorem mapb_fields {val : BitVec 16} (h : val.toNat ≤ 0x00FF) :
    0#8 ++ val.extractLsb' 7 1 ++ val.extractLsb' 0 7 = val := by
  apply BitVec.eq_of_toNat_eq
  refine (toNat_append_add (0#8 ++ val.extractLsb' 7 1) _).trans ?_
  rw [zero_append_toNat, extract_toNat, extract_toNat]
  omega

/-- The two fields of a value of MAPA or MO, as numbers. -/
theorem numberAndChannel_toNat {hi n : Nat} (number : BitVec n) (chan : BitVec 4) :
    (0#hi ++ number ++ 0#4 ++ chan).toNat = number.toNat * 256 + chan.toNat := by
  rw [toNat_append_add, toNat_append_add, zero_append_toNat, BitVec.toNat_ofNat]
  omega

theorem MapFn.bits_ofBits : ∀ b : BitVec 5, b.toNat ≤ 17 → (MapFn.ofBits b).bits = b := by decide

theorem MoFn.bits_ofBits : ∀ b : BitVec 2, b.toNat ≤ 2 → (MoFn.ofBits b).bits = b := by decide

/-- A legal value of MAPA is what its register reads once it is written (45_config.md R303). -/
theorem mapa_of_legal {cfg : Config} {ch : BitVec 3} {val : BitVec 16}
    (hv : legalValue cfg (.mapa ch) val = true) :
    0#3 ++ (MapFn.ofBits (val.extractLsb' 8 5)).bits ++ 0#4 ++ val.extractLsb' 0 4 = val := by
  obtain ⟨hmask, hnumber⟩ := (legalValue_mapa_iff cfg ch val).mp hv
  rw [MapFn.bits_ofBits _ (by rw [extract_toNat]; exact hnumber)]
  exact mapa_fields hmask

/-- A legal value of MO is what its register reads once it is written (R303). -/
theorem mo_of_legal {cfg : Config} {ch : BitVec 3} {val : BitVec 16}
    (hv : legalValue cfg (.mo ch) val = true) :
    0#6 ++ (MoFn.ofBits (val.extractLsb' 8 2)).bits ++ 0#4 ++ val.extractLsb' 0 4 = val := by
  obtain ⟨hmask, hnumber⟩ := (legalValue_mo_iff cfg ch val).mp hv
  rw [MoFn.bits_ofBits _ (by rw [extract_toNat]; exact hnumber)]
  exact mo_fields hmask

/-- The table of R43 is the numbering of the map functions. -/
theorem mem_mapFnNumbers_iff {n : Nat} {f : MapFn} : (n, f) ∈ mapFnNumbers ↔ n = f.bits.toNat := by
  cases f <;> simp [mapFnNumbers, MapFn.bits]

/-- The table of R52 is the numbering of the outbound roles. -/
theorem mem_moFnNumbers_iff {n : Nat} {f : MoFn} : (n, f) ∈ moFnNumbers ↔ n = f.bits.toNat := by
  cases f <;> simp [moFnNumbers, MoFn.bits]

/-! ### What a write does to the registers -/

theorem lane_updateLane (s : State) (ch q : BitVec 3) (f : OutChannel → OutChannel) :
    (s.updateLane ch f).lane q = if ch = q then f (s.lane q) else s.lane q := by
  refine (updateLane_get s ch f q.toNat q.isLt).trans ?_
  simp only [← BitVec.toNat_inj]
  rfl

theorem lane_updateLane_self (s : State) (ch : BitVec 3) (f : OutChannel → OutChannel) :
    (s.updateLane ch f).lane ch = f (s.lane ch) :=
  (lane_updateLane s ch ch f).trans (if_pos rfl)

/-- A register holds the legal value written to it (45_config.md R300, R303). -/
theorem readReg_writeReg {r : Reg} {val : BitVec 16} {s : State} (hw : r.writable = true)
    (hv : legalValue s.cfg r val = true) :
    readReg r (writeReg r val s) = val := by
  cases r with
  | ctrl =>
    have hlt : val.toNat < 2 ^ 1 := Nat.lt_succ_of_le (of_decide_eq_true hv)
    have hbit := ofBool_getLsbD val 0
    exact (congrArg (0#15 ++ ·) hbit).trans (zero_append_extract (k := 15) hlt)
  | clkDiv =>
    have hle := (of_decide_eq_true hv).2
    exact zero_append_extract (k := 8) (Nat.lt_succ_of_le hle)
  | clkSkip =>
    have hle : val.toNat ≤ 100 := of_decide_eq_true hv
    exact zero_append_extract (k := 9) (hle.trans_lt (by decide))
  | bpm =>
    obtain ⟨-, -, hlt⟩ := of_decide_eq_true hv
    have hbpm : (fitNat 9 val.toNat).toNat = val.toNat := fitNat_toNat hlt
    exact BitVec.eq_of_toNat_eq ((zero_append_toNat 7 _).trans hbpm)
  | shuffle => exact zero_append_extract (k := 9) (of_decide_eq_true hv).2
  | syncPpqn =>
    have hle := (of_decide_eq_true hv).2
    exact zero_append_extract (k := 11) (hle.trans_lt (by decide))
  | syncSrc => exact zero_append_extract (k := 13) (of_decide_eq_true hv).2
  | moHold => rfl
  | mapa ch =>
    simp only [readReg, writeReg, lane_updateLane_self]
    exact mapa_of_legal hv
  | mapb ch =>
    simp only [readReg, writeReg, lane_updateLane_self, ofBool_getLsbD]
    exact mapb_fields (of_decide_eq_true hv)
  | mult ch =>
    have hle : val.toNat ≤ 255 := of_decide_eq_true hv
    simp only [readReg, writeReg, lane_updateLane_self]
    exact zero_append_extract (k := 8) (Nat.lt_succ_of_le hle)
  | mo ch =>
    simp only [readReg, writeReg, lane_updateLane_self]
    exact mo_of_legal hv
  | _ => cases hw

/-- A write to a register leaves every other as it was, but for the beat's length, which a write of
`BPM` sets (R300, R304). -/
theorem readReg_writeReg_ne {q r : Reg} (val : BitVec 16) (s : State) (hne : q ≠ r)
    (hbpm : r = .bpm → q ≠ .beatTicksLo ∧ q ≠ .beatTicksHi) :
    readReg q (writeReg r val s) = readReg q s := by
  cases r with
  | bpm =>
    obtain ⟨hlo, hhi⟩ := hbpm rfl
    cases q with
    | bpm => exact absurd rfl hne
    | beatTicksLo => exact absurd rfl hlo
    | beatTicksHi => exact absurd rfl hhi
    | _ => rfl
  | ctrl | clkDiv | clkSkip | shuffle | syncPpqn | syncSrc | moHold =>
    cases q <;> first | rfl | exact absurd rfl hne
  | mapa ch | mapb ch | mult ch | mo ch =>
    cases q with
    | mapa b | mapb b | mult b | mo b =>
      by_cases hch : ch = b
      · subst hch
        first
          | exact absurd rfl hne
          | simp only [readReg, writeReg, lane_updateLane_self]
      · simp only [readReg, writeReg, lane_updateLane, if_neg hch]
    | _ => rfl
  | _ => rfl

/-- A write of `BPM` sets the beat's length, and no other write does (R304). -/
theorem writeReg_beatTicks {r : Reg} {val : BitVec 16} {s : State} (hcfg : s.cfg.Legal)
    (hv : legalValue s.cfg r val = true) :
    (writeReg r val s).clk.beatTicks
      = if r = .bpm then BitVec.ofNat 20 (s.cfg.ticksPerMin / val.toNat) else s.clk.beatTicks := by
  cases r with
  | bpm =>
    obtain ⟨hlow, hhigh, -⟩ := of_decide_eq_true hv
    simp only [writeReg, setTempo_eq s.clk hcfg hlow hhigh, if_true]
  | _ => rfl

/-- A legal write of `MAPA` selects the function and the channel of the numbers written (R43, R62). -/
theorem writeReg_mapa_lane {ch : BitVec 3} {val : BitVec 16} {s : State}
    (hv : legalValue s.cfg (.mapa ch) val = true) :
    let d := (writeReg (.mapa ch) val s).lane ch
    (val.toNat / 2 ^ 8, d.mapFn) ∈ mapFnNumbers ∧ d.mapMch.toNat = val.toNat % 2 ^ 4 := by
  have hval := congrArg BitVec.toNat (mapa_of_legal hv)
  rw [numberAndChannel_toNat] at hval
  simp only [writeReg, lane_updateLane_self, mem_mapFnNumbers_iff]
  omega

/-- A legal write of `MO` selects the role and the channel of the numbers written (R52, R62). -/
theorem writeReg_mo_lane {ch : BitVec 3} {val : BitVec 16} {s : State}
    (hv : legalValue s.cfg (.mo ch) val = true) :
    let d := (writeReg (.mo ch) val s).lane ch
    (val.toNat / 2 ^ 8, d.moFn) ∈ moFnNumbers ∧ d.moChan.toNat = val.toNat % 2 ^ 4 := by
  have hval := congrArg BitVec.toNat (mo_of_legal hv)
  rw [numberAndChannel_toNat] at hval
  simp only [writeReg, lane_updateLane_self, mem_moFnNumbers_iff]
  omega

/-- The register at an address with a given number. -/
theorem eq_of_addr_toNat {q r : Reg} {addr : BitVec 8} {n : Nat} (hr : r.addr = addr)
    (haddr : addr.toNat = n) (hq : q.addr.toNat = n) : r = q :=
  Reg.addr_injective (hr.trans (BitVec.eq_of_toNat_eq (haddr.trans hq.symm)))

/-- Settles O53: the addresses name the registers, and the write is said of those. -/
theorem legalWriteReadsBack : Obligations.LegalWriteReadsBack := by
  intro addr val r s hlegal hr hw hv
  have hcfg := Config.legal_elim hlegal
  have haddr := addr_of_regAt hr
  have hbpm : r = .bpm ↔ addr = 0x03#8 := by
    rw [← haddr]
    exact ⟨fun h => h ▸ rfl, fun h => Reg.addr_injective h⟩
  refine ⟨(writeReg r val s).respond 0, (exec_cfgw_register hr hw).trans (if_pos hv), ?_,
    fun a q hq hne hother => ?_, ?_, congrArg (·.respond 0) (writeReg_frame r val s), ?_⟩
  · rw [readReg_respond, readReg_writeReg hw hv]
  · have ha := addr_of_regAt hq
    rw [readReg_respond]
    refine readReg_writeReg_ne val s (fun h => hne (by rw [← ha, h, haddr])) fun h => ?_
    obtain ⟨hlo, hhi⟩ := hother (hbpm.mp h)
    exact ⟨fun e => hlo (by rw [← ha, e]; rfl), fun e => hhi (by rw [← ha, e]; rfl)⟩
  · rw [respond_clk, writeReg_beatTicks hcfg hv]
    exact if_congr hbpm rfl rfl
  · intro ch hch d
    refine ⟨writeReg_lane r val s ch hch, fun _ hmapa => ?_, fun _ hmo => ?_⟩
    · obtain rfl := eq_of_addr_toNat (q := .mapa ⟨ch, hch⟩) haddr hmapa (mapa_addr_toNat _)
      exact writeReg_mapa_lane hv
    · obtain rfl := eq_of_addr_toNat (q := .mo ⟨ch, hch⟩) haddr hmo (mo_addr_toNat _)
      exact writeReg_mo_lane hv

/-! ### What CFGR answers -/

/-- The answer is the register's value as a number (R301). -/
theorem cfgr_answers {addr : BitVec 8} {s : State} {r : Reg} {v : Nat} (haddr : r.addr = addr)
    (himpl : r.Implemented s.cfg.nout) (hv : (readReg r s).toNat = v) :
    exec (.cfgr addr) s = .next { s with resp := BitVec.ofNat 32 v } := by
  have hword : regWord (readReg r s) = BitVec.ofNat 32 v := by
    rw [← hv, BitVec.ofNat_toNat]
    rfl
  rw [exec_cfgr_register (regAt_eq_some_iff.mpr ⟨haddr, himpl⟩), hword]
  rfl

theorem ofBool_toNat (b : Bool) : (BitVec.ofBool b).toNat = if b then 1 else 0 := by
  cases b <;> rfl

theorem phase_bit_toNat (p : Phase) : p.bit.toNat = if p == .process then 1 else 0 := by
  cases p <;> rfl

/-- The STATUS register as a number (10_state.md R63). -/
theorem statusWord_toNat (s : State) : (statusWord s).toNat
    = s.clk.state.bits.toNat + (BitVec.ofBool s.midi.running).toNat * 4
      + (BitVec.ofBool s.midi.clkTick).toNat * 8 + (BitVec.ofBool s.clk.emitClk).toNat * 16
      + (BitVec.ofBool s.midi.rxqOvf).toNat * 32 + (BitVec.ofBool s.clk.syncSeen).toNat * 64
      + s.phase.bit.toNat * 128 := by
  unfold statusWord
  simp only [toNat_append_add, BitVec.toNat_ofNat]
  omega

theorem readReg_mapb_toNat (ch : BitVec 3) (s : State) : (readReg (.mapb ch) s).toNat
    = (BitVec.ofBool (s.lane ch).ccUnset).toNat * 128 + (s.lane ch).mapCc.toNat := by
  refine (toNat_append_add (0#8 ++ BitVec.ofBool (s.lane ch).ccUnset) (s.lane ch).mapCc).trans ?_
  rw [zero_append_toNat]
  rfl

/-- Settles O54, register by register. -/
theorem cfgrAnswersFields : Obligations.CfgrAnswersFields := by
  intro s _ bit state answers
  have hglobal {v : Nat} (r : Reg) (hlane : r.lane? = none) (hv : (readReg r s).toNat = v) :
      exec (.cfgr r.addr) s = .next { s with resp := BitVec.ofNat 32 v } :=
    cfgr_answers rfl (Reg.implemented_of_global hlane) hv
  have hbit (b : Bool) : (BitVec.ofBool b).toNat = bit b := ofBool_toNat b
  refine ⟨hglobal .ctrl rfl ((zero_append_toNat 15 _).trans (hbit _)),
    hglobal .clkDiv rfl (zero_append_toNat 8 _), hglobal .clkSkip rfl (zero_append_toNat 9 _),
    hglobal .bpm rfl (zero_append_toNat 7 _), hglobal .shuffle rfl (zero_append_toNat 9 _),
    hglobal .syncPpqn rfl (zero_append_toNat 11 _), hglobal .syncSrc rfl (zero_append_toNat 13 _),
    hglobal .moHold rfl rfl, fun ch hch hn => ?_, ?_, hglobal .tickLo rfl ?_, hglobal .tickHi rfl ?_,
    hglobal .rngDraws rfl ?_, hglobal .sustain rfl rfl, hglobal .semitone rfl (zero_append_toNat 4 _),
    hglobal .beatTicksLo rfl ?_, hglobal .beatTicksHi rfl ?_, hglobal .rxqLevel rfl ?_,
    hglobal .ppqnCnt rfl (zero_append_toNat 8 _)⟩
  · have hlane {v addr : Nat} (r : Reg) (haddr : r.addr.toNat = addr) (hr : r.lane? = some ⟨ch, hch⟩)
        (hv : (readReg r s).toNat = v) : answers addr v :=
      cfgr_answers (Reg.addr_eq_ofNat haddr) (Reg.implemented_of_lane hr hn) hv
    refine ⟨fun n hfn => hlane (.mapa ⟨ch, hch⟩) (mapa_addr_toNat _) rfl ?_,
      hlane (.mapb ⟨ch, hch⟩) (mapb_addr_toNat _) rfl ?_,
      hlane (.mult ⟨ch, hch⟩) (mult_addr_toNat _) rfl (zero_append_toNat 8 _),
      fun n hfn => hlane (.mo ⟨ch, hch⟩) (mo_addr_toNat _) rfl ?_⟩
    · rw [mem_mapFnNumbers_iff.mp hfn]
      exact numberAndChannel_toNat _ _
    · rw [readReg_mapb_toNat, hbit]
      rfl
    · rw [mem_moFnNumbers_iff.mp hfn]
      exact numberAndChannel_toNat _ _
  · refine hglobal .status rfl ((statusWord_toNat s).trans ?_)
    have hstate : s.clk.state.bits.toNat = state := by
      cases h : s.clk.state <;> simp only [state, h] <;> rfl
    have hphase : s.phase.bit.toNat = bit (s.phase == .process) := phase_bit_toNat s.phase
    rw [hstate, hphase]
    simp only [hbit]
  · exact (extract_toNat s.tickCount 0 16).trans (by omega)
  · exact (extract_toNat s.tickCount 16 16).trans (by omega)
  · exact (extract_toNat s.rngDraws 0 16).trans (by omega)
  · exact (extract_toNat s.clk.beatTicks 0 16).trans (by omega)
  · exact (zero_append_toNat 12 _).trans ((extract_toNat s.clk.beatTicks 16 4).trans (by omega))
  · exact (zero_append_toNat 8 _).trans (BitVec.toNat_ofNat _ _)

end Sys2Proof.Machine
end

section
/-! PROOFS. The statements of 60_exceptions.md. `exec_checked` says once how each command is checked, and
that a command which passes has one of the effects of `Effect`, none of which writes the fault latch
(`Effect.fault_eq`); the faults of a command are read off its checks. A word and the RESET port are
dealt with before any command, by `step`. -/

namespace Sys2Proof.Machine

/-! ### Before a command runs -/

/-- A presented word that is illegal is latched with the fault it raises (60_exceptions.md R323). -/
theorem step_of_decode_error {s : State} {w : Word} {inputs : Inputs} {rest : List HostEvent}
    {e : Illegal} (hacc : s.cfg.accepted = true) (hres : s.resetAsserted = false)
    (hfault : s.fault.code = .none) (hpend : s.pending = .command w inputs :: rest)
    (hdec : decode w = .error e) :
    step s = .next (({ s with pending := rest, inputs := inputs } : State).raise
      .illegalCommand w) := by
  have hpresent : ({ s with pending := rest, inputs := inputs } : State).present w
      = .done (({ s with pending := rest, inputs := inputs } : State).raise .illegalCommand w) := by
    simp [State.present, State.faulted, hfault, hdec]
  rw [step_command s w inputs rest hacc hres hpend, hpresent]

/-- A word presented while a fault is latched is answered with all ones and not decoded (R330). -/
theorem step_of_faulted {s : State} {w : Word} {inputs : Inputs} {rest : List HostEvent}
    (hacc : s.cfg.accepted = true) (hres : s.resetAsserted = false)
    (hfault : s.fault.code ≠ .none) (hpend : s.pending = .command w inputs :: rest) :
    step s = .next (({ s with pending := rest, inputs := inputs } : State).respond allOnes) := by
  have hpresent : ({ s with pending := rest, inputs := inputs } : State).present w
      = .done (({ s with pending := rest, inputs := inputs } : State).respond allOnes) := by
    simp [State.present, State.faulted, hfault, State.ignoreCommand]
  rw [step_command s w inputs rest hacc hres hpend, hpresent]

/-- A word matches no row of the map exactly when the decoder refuses it (30_encoding.md R107, R110). -/
theorem decodeByMap_eq_none_iff {w : Word} : decodeByMap w = none ↔ ∃ e, decode w = .error e := by
  rw [← decoderFollowsOpcodeMap w]
  cases decode w <;> simp [Except.toOption]

/-- A format M word with bit 15 or bit 7 set has a non-zero `zero` field (R101, R110). -/
theorem decode_midi_of_reserved {w : Word} (hop : opByte w = 0x10)
    (hbit : w.getLsbD 15 = true ∨ w.getLsbD 7 = true) : decode w = .error .reservedBits := by
  have hzero : (!w.getLsbD 15 && !w.getLsbD 7) = false := by
    rcases hbit with hbit | hbit <;> simp [hbit]
  simp only [decode, hop, formM, hzero]
  rfl

/-- Settles O6: a word that matches no row is one the decoder refuses, and a block that is not faulted
latches it. -/
theorem unmatchedWordRaisesIllegalCommand : Obligations.UnmatchedWordRaisesIllegalCommand := by
  refine ⟨fun s w inputs rest hacc hres hfault hpend hmap => ?_, fun w hop hbit => ?_, ?_, ?_⟩
  · obtain ⟨e, hdec⟩ := decodeByMap_eq_none_iff.mp hmap
    exact step_of_decode_error hacc hres hfault hpend hdec
  · exact decodeByMap_eq_none_iff.mpr ⟨_, decode_midi_of_reserved hop hbit⟩
  · exact decodeByMap_eq_none_iff.mpr ⟨.unknownOpcode, rfl⟩
  · exact decodeByMap_eq_none_iff.mpr ⟨.reservedBits, rfl⟩

/-- Settles O7, by what a step does with each event. -/
theorem faultedBlockWaitsForReset : Obligations.FaultedBlockWaitsForReset := by
  intro s rest hacc
  exact ⟨fun w inputs hres hfault hpend => step_of_faulted hacc hres hfault hpend,
    fun hpend => step_assert s rest hacc hpend,
    fun w inputs hres hpend => step_ignored s w inputs rest hacc hres hpend,
    fun hres hpend => step_release s rest hacc hres hpend⟩

/-! ### The effects leave the latch alone -/

theorem loadTick_fault (s : State) : s.loadTick.fault = s.fault := by
  obtain ⟨d, hdrain, hengine, -, -⟩ := loadTick_split s
  rw [hengine.fault, hdrain.fault, conditioned_frame]

/-- No effect writes the fault latch (60_exceptions.md R321). -/
theorem Effect.fault_eq {s t : State} {i : Instr} (h : Effect s i t) : t.fault = s.fault := by
  cases h with
  | load => exact loadTick_fault s
  | send => rw [respond_fault, sendTick_frame]
  | midi i m => exact enqueue_fault s m
  | query | out | startlag | tap => rfl
  | skip => rw [respond_fault, afterDraw_eq]
  | pulse => rw [respond_fault, setOut_fault, afterDraw_eq]
  | playstop => rw [respond_fault, togglePlay_frame]
  | cfgw => rw [respond_fault, writeReg_frame]

/-- Settles O15: a command that changed the latch had no effect, so it was refused by `State.raise`. -/
theorem faultsArePrecise : Obligations.FaultsArePrecise := by
  intro i s t h hchanged
  rcases exec_cases h with ⟨code, hcode, rfl⟩ | heffect
  · exact ⟨rfl, hcode, rfl⟩
  · exact absurd heffect.fault_eq hchanged

/-! ### How each command is checked -/

/-- `sel` is what the index of command `i` selects: nothing out of its range, and under legal parameters
something within it (60_exceptions.md R325). -/
structure Selects {α : Type} (s : State) (i : Instr) (sel : Option α) : Prop where
  none_of_outside : i.indexInRange s.cfg = false → sel = none
  some_of_inside : s.cfg.legal = true → i.indexInRange s.cfg = true → ∃ x, sel = some x

theorem inLane_selects {s : State} {i : Instr} {idx : BitVec 4}
    (hi : i.indexInRange s.cfg = decide (idx.toNat < s.cfg.nin)) : Selects s i (s.inLane idx) where
  none_of_outside h := inLane_none s idx (Nat.not_lt.mp (of_decide_eq_false (hi.symm.trans h)))
  some_of_inside hlegal h := by
    have hidx : idx.toNat < s.cfg.nin := of_decide_eq_true (hi.symm.trans h)
    have hslots := (Config.legal_elim hlegal).lanes.1
    exact ⟨_, inLane_eq s idx (Nat.lt_of_lt_of_le hidx hslots) hidx⟩

theorem outLane_selects {s : State} {i : Instr} {idx : BitVec 4}
    (hi : i.indexInRange s.cfg = decide (idx.toNat < s.cfg.nout)) : Selects s i (s.outLane idx) where
  none_of_outside h := outLane_none s idx (Nat.not_lt.mp (of_decide_eq_false (hi.symm.trans h)))
  some_of_inside hlegal h := by
    have hidx : idx.toNat < s.cfg.nout := of_decide_eq_true (hi.symm.trans h)
    have hslots := (Config.legal_elim hlegal).nout.2
    exact ⟨_, outLane_eq s idx (Nat.lt_of_lt_of_le hidx hslots) hidx⟩

/-- The position `LOGR` selects (43_midi_query_out.md R238). -/
theorem logr_selects (s : State) (idx : BitVec 4) :
    Selects s (.logr idx) (if idx.toNat < s.cfg.logDepth then some idx.toNat else none) where
  none_of_outside h := if_neg (of_decide_eq_false h)
  some_of_inside _ h := ⟨_, if_pos (of_decide_eq_true h)⟩

/-- The ways a command is checked (60_exceptions.md R320), each with its outcome. What passes the checks of
phase and index is an effect of the command; the checks of LOAD and of register access are their own. -/
inductive Checked (s : State) : Instr → Result → Prop where
  | load : Checked s .load (execLoad s)
  | inProcess (i : Instr) (t : State) (hlegal : i.legalPhase = some .process)
      (hindex : i.indexInRange s.cfg = true) (heffect : s.phase = .process → Effect s i t) :
      Checked s i (inProcess i s t)
  | indexed {α : Type} (i : Instr) (sel : Option α) (run : α → State)
      (hlegal : i.legalPhase = some .process) (hsel : Selects s i sel)
      (heffect : ∀ x, s.phase = .process → sel = some x → Effect s i (run x)) :
      Checked s i (indexed i s sel run)
  | midi (i : Instr) (m : MidiMsg) (hlegal : i.legalPhase = none)
      (hindex : i.indexInRange s.cfg = true) (heffect : Effect s i (s.enqueue m)) :
      Checked s i (.next (s.enqueue m))
  | cfgw (addr : BitVec 8) (val : BitVec 16) : Checked s (.cfgw addr val) (execCfgw addr val s)
  | cfgr (addr : BitVec 8) : Checked s (.cfgr addr) (execCfgr addr s)

/-- Every command is checked in one of these ways (30_encoding.md R103, R108). -/
theorem exec_checked (i : Instr) (s : State) : Checked s i (exec i s) := by
  cases i with
  | load => exact .load
  | send => exact .inProcess _ _ rfl rfl .send
  | playstop => exact .inProcess _ _ rfl rfl .playstop
  | tap => exact .inProcess _ _ rfl rfl .tap
  | nlast | nmin | nmax | nfirst | susq | nsize =>
    exact .inProcess _ _ rfl rfl fun _ => .query _ _ rfl
  | mNoteoff | mNoteon | mAtpoly | mCc | mAtchan | mPbend | mClock | mStart | mCont | mStop | mReset
  | mOther => exact .midi _ _ rfl rfl (.midi _ _ rfl rfl)
  | readIn | gate | clock | tsc | changed | lastcv | islag =>
    exact .indexed _ _ _ rfl (inLane_selects rfl) fun _ _ _ => .query _ _ rfl
  | loop | outq | mout | mtrig | tock =>
    exact .indexed _ _ _ rfl (outLane_selects rfl) fun _ _ _ => .query _ _ rfl
  | logr idx => exact .indexed _ _ _ rfl (logr_selects s idx) fun _ _ _ => .query _ _ rfl
  | startlag idx => exact .indexed _ _ _ rfl (inLane_selects rfl) (.startlag idx)
  | out idx imm => exact .indexed _ _ _ rfl (outLane_selects rfl) (.out idx imm)
  | clkout idx imm =>
    refine .indexed _ _ _ rfl (outLane_selects rfl) fun c hphase hc => ?_
    cases hskip : s.skipsPulse with
    | true => exact .skip idx imm c hphase hc hskip
    | false => exact .pulse idx imm c hphase hc hskip
  | cfgw addr val => exact .cfgw addr val
  | cfgr addr => exact .cfgr addr

theorem Phase.eq_idle_of_ne {p : Phase} (h : p ≠ .process) : p = .idle := by
  cases p with
  | idle => rfl
  | process => exact absurd rfl h

theorem execLoad_of_process {s : State} (h : s.phase = .process) :
    execLoad s = faultOutcome .load s .badOrder := by
  simp only [execLoad, h]
  rfl

/-- Settles O11, by how each command is checked: the phase comes first. -/
theorem wrongPhaseRaisesBadOrder : Obligations.WrongPhaseRaisesBadOrder := by
  intro i s p hp hphase
  have hchecked := exec_checked i s
  generalize exec i s = r at hchecked ⊢
  cases hchecked with
  | load =>
    cases hp
    cases hs : s.phase with
    | idle => exact absurd hs hphase
    | process => exact execLoad_of_process hs
  | inProcess i t hlegal =>
    cases hp.symm.trans hlegal
    exact inProcess_of_idle (Phase.eq_idle_of_ne hphase)
  | indexed i sel run hlegal =>
    cases hp.symm.trans hlegal
    exact indexed_of_idle (Phase.eq_idle_of_ne hphase)
  | midi i m hlegal => cases hp.symm.trans hlegal
  | cfgw | cfgr => cases hp

/-- Settles O12, by how each command is checked: only an indexed command has a range, and the note queries
are not among them. -/
theorem outOfRangeIndexRaisesBadChannel : Obligations.OutOfRangeIndexRaisesBadChannel := by
  refine ⟨fun i s hphase hout => ?_, fun idx s hphase i hi => ?_⟩
  · have hchecked := exec_checked i s
    generalize exec i s = r at hchecked ⊢
    cases hchecked with
    | indexed i sel run _ hsel => exact indexed_of_none hphase (hsel.none_of_outside hout)
    | inProcess i t _ hindex => cases hout.symm.trans hindex
    | midi i m _ hindex => cases hout.symm.trans hindex
    | load | cfgw | cfgr => cases hout
  · simp only [List.mem_cons, List.not_mem_nil, or_false] at hi
    rcases hi with rfl | rfl | rfl | rfl | rfl | rfl <;> exact ⟨_, inProcess_of_process hphase⟩

/-- Settles O16: the hypotheses exclude what each command is checked for, so it has its effect, and no
effect writes the latch. -/
theorem legalCommandNeverFaults : Obligations.LegalCommandNeverFaults := by
  intro i s hcfg hphase hindex hcfgw hcfgr
  have hchecked := exec_checked i s
  generalize exec i s = r at hchecked ⊢
  cases hchecked with
  | load =>
    have hidle := hphase _ rfl
    exact ⟨_, exec_load_of_idle hidle, (Effect.load hidle).fault_eq⟩
  | inProcess i t hlegal _ heffect =>
    have hprocess := hphase _ hlegal
    exact ⟨_, inProcess_of_process hprocess, (heffect hprocess).fault_eq⟩
  | indexed i sel run hlegal hsel heffect =>
    have hprocess := hphase _ hlegal
    obtain ⟨x, hx⟩ := hsel.some_of_inside hcfg hindex
    exact ⟨_, indexed_of_some hprocess hx, (heffect x hprocess hx).fault_eq⟩
  | midi i m _ _ heffect => exact ⟨_, rfl, heffect.fault_eq⟩
  | cfgw addr val =>
    obtain ⟨r, hr, hw, hv⟩ := hcfgw addr val rfl
    exact ⟨_, (exec_cfgw_register hr hw).trans (if_pos hv),
      (Effect.cfgw addr val r hr hw hv).fault_eq⟩
  | cfgr addr =>
    obtain ⟨r, hr⟩ := Option.ne_none_iff_exists'.mp (hcfgr addr rfl)
    exact ⟨_, exec_cfgr_register hr, rfl⟩

end Sys2Proof.Machine
end

section
/-! PROOFS. The statements of 70_reset_and_hazards.md. What a register reads after reset is said of the
register (`readReg_reset`); the register map (`regAt_eq_some_iff`) carries it to the addresses. That a
command is always answered is read off how it is checked (`exec_checked`). -/

namespace Sys2Proof.Machine

/-! ### Reset -/

theorem reset_ins (ch : Fin ninMax) : State.reset.ins[ch] = .reset := Vector.getElem_replicate ch.isLt

theorem reset_outs (ch : Fin noutMax) : State.reset.outs[ch] = .reset :=
  Vector.getElem_replicate ch.isLt

theorem reset_stack (mc : Fin nmidiMax) : State.reset.midi.stack[mc] = [] :=
  Vector.getElem_replicate mc.isLt

theorem reset_dac (ch : Fin ndacMax) :
    State.reset.dac[ch] = { code := 0, octave := State.reset.cfg.dacOctave } :=
  Vector.getElem_replicate ch.isLt

theorem reset_lane (ch : BitVec 3) : State.reset.lane ch = .reset := reset_outs ch.toFin

/-- What a register reads after reset (70_reset_and_hazards.md R351). -/
def Reg.resetValue : Reg → BitVec 16
  | .clkDiv => 1
  | .bpm => 120
  | .syncPpqn => 4
  | .syncSrc => 7
  | .mapb _ => 0x0080
  | .status => 0x0010
  | .beatTicksLo => 8333
  | _ => 0

theorem readReg_reset (r : Reg) : readReg r State.reset = r.resetValue := by
  cases r with
  | mapa ch | mapb ch | mult ch | mo ch => simp only [readReg, reset_lane]; rfl
  | _ => rfl

/-- The reset values by address, on the registers a block of four outputs has. -/
theorem Reg.resetValue_eq {r : Reg} (h : r.Implemented 4) :
    r.resetValue = if r.addr = 0x01#8 then 1 else if r.addr = 0x03#8 then 120
      else if r.addr = 0x05#8 then 4 else if r.addr = 0x06#8 then 7
      else if 0x18#8 ≤ r.addr ∧ r.addr < 0x1C#8 then 0x0080
      else if r.addr = 0x80#8 then 0x0010 else if r.addr = 0x86#8 then 8333 else 0 := by
  cases r with
  | mapa ch | mapb ch | mult ch | mo ch =>
    have hch : ch.toNat < 4 := h ch rfl
    clear h
    decide +revert
  | _ => rfl

/-- Settles O8: each element by its reset value, each register by what it reads. -/
theorem resetValues : Obligations.ResetValues := by
  refine ⟨reset_ins, reset_outs, rfl, rfl, reset_stack, ?_⟩
  repeat refine ⟨rfl, ?_⟩
  refine ⟨reset_dac, rfl, fun addr r hr => ?_⟩
  obtain ⟨rfl, himpl⟩ := regAt_eq_some_iff.mp hr
  exact (readReg_reset r).trans (Reg.resetValue_eq himpl)

/-- Settles O56: RESET establishes the invariant, and the default parameters are legal. -/
theorem resetHasWf : Obligations.ResetHasWf :=
  ⟨fun _ hlegal => resetWith_wf hlegal, resetWith_wf (by decide)⟩

/-! ### Every command is answered -/

theorem inProcess_answers (i : Instr) (s t : State) : ∃ u, inProcess i s t = .next u := by
  cases h : s.phase with
  | idle => exact ⟨_, inProcess_of_idle h⟩
  | process => exact ⟨_, inProcess_of_process h⟩

theorem indexed_answers {α : Type} (i : Instr) (s : State) (sel : Option α) (run : α → State) :
    ∃ u, indexed i s sel run = .next u := by
  cases h : s.phase with
  | idle => exact ⟨_, indexed_of_idle h⟩
  | process =>
    cases sel with
    | none => exact ⟨_, indexed_of_none h rfl⟩
    | some x => exact ⟨_, indexed_of_some h rfl⟩

theorem execLoad_answers (s : State) : ∃ u, execLoad s = .next u := by
  cases h : s.phase with
  | idle => exact ⟨_, exec_load_of_idle h⟩
  | process => exact ⟨_, execLoad_of_process h⟩

theorem execCfgw_answers (addr : BitVec 8) (val : BitVec 16) (s : State) :
    ∃ u, execCfgw addr val s = .next u := by
  cases h : (regAt s.cfg.nout addr).filter Reg.writable with
  | none => exact ⟨_, exec_cfgw_of_none h⟩
  | some r =>
    obtain ⟨hr, hw⟩ := Option.filter_eq_some_iff.mp h
    by_cases hv : legalValue s.cfg r val = true
    · exact ⟨_, (exec_cfgw_register hr hw).trans (if_pos hv)⟩
    · exact ⟨_, (exec_cfgw_register hr hw).trans (if_neg hv)⟩

theorem execCfgr_answers (addr : BitVec 8) (s : State) : ∃ u, execCfgr addr s = .next u := by
  cases hr : regAt s.cfg.nout addr with
  | none => exact ⟨_, exec_cfgr_of_none hr⟩
  | some r => exact ⟨_, exec_cfgr_register hr⟩

/-- Every command has a next state in every state, whichever way it is checked
(93_implementation_defined.md U22). -/
theorem exec_answers (i : Instr) (s : State) : ∃ t, exec i s = .next t := by
  have hchecked := exec_checked i s
  generalize exec i s = r at hchecked ⊢
  cases hchecked with
  | load => exact execLoad_answers s
  | inProcess i t => exact inProcess_answers i s t
  | indexed i sel run => exact indexed_answers i s sel run
  | midi => exact ⟨_, rfl⟩
  | cfgw addr val => exact execCfgw_answers addr val s
  | cfgr addr => exact execCfgr_answers addr s

/-- A presented word is answered: it is ignored while faulted, refused by the decoder with a fault, or it
is a command (60_exceptions.md R323, R330). -/
theorem step_command_answers {s : State} {w : Word} {inputs : Inputs} {rest : List HostEvent}
    (hacc : s.cfg.accepted = true) (hres : s.resetAsserted = false)
    (hpend : s.pending = .command w inputs :: rest) : ∃ t, step s = .next t := by
  by_cases hfault : s.fault.code = .none
  · cases hdec : decode w with
    | error e => exact ⟨_, step_of_decode_error hacc hres hfault hpend hdec⟩
    | ok i =>
      rw [stepRunsDecodedCommand s w inputs rest i hacc hres hfault hpend hdec]
      exact exec_answers i _
  · exact ⟨_, step_of_faulted hacc hres hfault hpend⟩

/-- Settles O10, by the event presented. -/
theorem everyPresentedCommandCompletes : Obligations.EveryPresentedCommandCompletes := by
  refine ⟨fun s hacc => ?_, exec_answers⟩
  cases hpend : s.pending with
  | nil => exact ⟨_, step_idle s hpend⟩
  | cons e rest =>
    cases e with
    | assertReset => exact ⟨_, step_assert s rest hacc hpend⟩
    | releaseReset =>
      cases hres : s.resetAsserted with
      | true => exact ⟨_, step_release s rest hacc hres hpend⟩
      | false => exact ⟨_, step_release_idle s rest hacc hres hpend⟩
    | command w inputs =>
      cases hres : s.resetAsserted with
      | true => exact ⟨_, step_ignored s w inputs rest hacc hres hpend⟩
      | false => exact step_command_answers hacc hres hpend

end Sys2Proof.Machine
end


section
/-! PROOFS. The parameter sets of 93_implementation_defined.md U13. An accepted set always has a next state
(`everyPresentedCommandCompletes`), so that a set which is not accepted is the only cause of a refusal. -/

namespace Sys2Proof.Machine

/-- The ranges of U13 from outside: a set is not accepted when one of its parameters leaves its range. -/
theorem config_accepted_eq_false_iff (c : Config) :
    c.accepted = false ↔
      c.nout < 4 ∨ 8 < c.nout ∨ c.debounceTicks < 1 ∨ c.rxqDepth < 1 ∨ 255 < c.rxqDepth
        ∨ 1 < c.multPosOffset := by
  rw [← Bool.not_eq_true]
  simp only [Config.accepted, noutMax, Bool.and_eq_true, decide_eq_true_eq]
  omega

/-- Whatever is presented, and in whatever state, the parameters alone decide whether it is refused. -/
theorem step_refused_iff {s : State} (hpend : s.pending ≠ []) :
    step s = .refused .illegalConfiguration ↔ s.cfg.accepted = false := by
  refine ⟨fun href => ?_, step_illegal s hpend⟩
  cases hacc : s.cfg.accepted with
  | false => rfl
  | true =>
    obtain ⟨t, hnext⟩ := everyPresentedCommandCompletes.1 s hacc
    rw [hnext] at href
    cases href

/-- Settles O9: the refusal is that of a set which is not accepted, and those are the sets outside the
ranges. -/
theorem illegalParametersAreRefused : Obligations.IllegalParametersAreRefused :=
  fun s hpend => (step_refused_iff hpend).trans (config_accepted_eq_false_iff s.cfg)

end Sys2Proof.Machine
end
